-- ==== Sys2Proof/Word.lean ====
section
/-! DEFINITION. The widths of the machine (00_scope.md R5, R7): byte, 16-bit word, 12-bit address, register index. -/

namespace Sys2Proof

/-- An 8-bit value: a general register, a timer, a memory cell (R5). -/
abbrev Byte := BitVec 8

/-- A 16-bit value: an instruction word, `I`, `pc`, a stack entry (R5). -/
abbrev Word := BitVec 16

/-- A memory address, 0x000 to 0xFFF (R5, R40). -/
abbrev Addr := BitVec 12

/-- The index of a general register, 0x0 to 0xF (R10); every 4-bit field value is one (R63). -/
abbrev RegIdx := Fin 16

/-- The index of VF, register 0xF (R11). -/
abbrev vF : RegIdx := 15

end Sys2Proof
end

