-- ==== Sys2Proof/Config.lean ====
section
/-! DEFINITION. What is fixed for this hardware (00_scope.md R5, R6) and the one value left open (R122, R179). -/

namespace Sys2Proof.Config

/-- Size of memory and modulus of every address computation, 0x1000 (R5, R44). -/
abbrev memSize : Nat := 0x1000

/-- The program load address and the reset value of `pc` (R5, R27, R48). -/
abbrev programBase : Nat := 0x200

/-- The longest program image, 3584 bytes (R48). -/
abbrev maxImage : Nat := 3584

/-- `STACK_DEPTH` (R6, R15). -/
abbrev stackDepth : Nat := 16

/-- Screen columns (R5, R22). -/
abbrev columns : Nat := 64

/-- Screen rows (R5, R22). -/
abbrev rows : Nat := 32

/-- The byte `rnd` that the `n`-th `CXNN` samples (R122, R179): a free value, no body, so any of the 256 values at every
sample, independently of the others. Log entry 1. -/
opaque rnd : Nat → Byte

end Sys2Proof.Config
end

