-- ==== Sys2Proof/Syntax.lean ====
section
/-! DEFINITION. The instructions (30_encoding.md R61, R70): one constructor per row of the opcode map, named by the row's
hexadecimal pattern, with the fields the row leaves free. -/

namespace Sys2Proof

/-- One instruction of the base CHIP-8 set. `x`, `y` are register indices, `nn` an 8-bit, `n` a 4-bit immediate, `nnn` an
address (R61, R63). `u` is the low nibble of families 5 and 9, which the decoder does not look at (R69); it is kept so that
an instruction determines its word. -/
inductive Instr where
  /-- `00E0`, CLS: clear the screen (R141). -/
  | op00E0
  /-- `00EE`, RET: return: pc <- pop (R90). -/
  | op00EE
  /-- `0NNN`, SYS NNN: machine-code call: fatal (R91). -/
  | op0NNN (nnn : Addr)
  /-- `1NNN`, JP NNN: jump (R92). -/
  | op1NNN (nnn : Addr)
  /-- `2NNN`, CALL NNN: call (R93). -/
  | op2NNN (nnn : Addr)
  /-- `3XNN`, SE Vx, NN: skip if V[X] = NN (R94). -/
  | op3XNN (x : RegIdx) (nn : Byte)
  /-- `4XNN`, SNE Vx, NN: skip if V[X] != NN (R95). -/
  | op4XNN (x : RegIdx) (nn : Byte)
  /-- `5XY0`, SE Vx, Vy: skip if V[X] = V[Y] (R96). -/
  | op5XY0 (x : RegIdx) (y : RegIdx) (u : BitVec 4)
  /-- `6XNN`, LD Vx, NN: V[X] <- NN (R111). -/
  | op6XNN (x : RegIdx) (nn : Byte)
  /-- `7XNN`, ADD Vx, NN: V[X] <- V[X] + NN (R112). -/
  | op7XNN (x : RegIdx) (nn : Byte)
  /-- `8XY0`, LD Vx, Vy: V[X] <- V[Y] (R113). -/
  | op8XY0 (x : RegIdx) (y : RegIdx)
  /-- `8XY1`, OR Vx, Vy: OR (R114). -/
  | op8XY1 (x : RegIdx) (y : RegIdx)
  /-- `8XY2`, AND Vx, Vy: AND (R115). -/
  | op8XY2 (x : RegIdx) (y : RegIdx)
  /-- `8XY3`, XOR Vx, Vy: XOR (R116). -/
  | op8XY3 (x : RegIdx) (y : RegIdx)
  /-- `8XY4`, ADD Vx, Vy: add, VF carry (R117). -/
  | op8XY4 (x : RegIdx) (y : RegIdx)
  /-- `8XY5`, SUB Vx, Vy: subtract, VF not-borrow (R118). -/
  | op8XY5 (x : RegIdx) (y : RegIdx)
  /-- `8XY6`, SHR Vx, Vy: V[X] <- V[Y] >> 1, VF bit 0 (R119). -/
  | op8XY6 (x : RegIdx) (y : RegIdx)
  /-- `8XY7`, SUBN Vx, Vy: reverse subtract, VF not-borrow (R120). -/
  | op8XY7 (x : RegIdx) (y : RegIdx)
  /-- `8XYE`, SHL Vx, Vy: V[X] <- V[Y] << 1, VF bit 7 (R121). -/
  | op8XYE (x : RegIdx) (y : RegIdx)
  /-- `9XY0`, SNE Vx, Vy: skip if V[X] != V[Y] (R97). -/
  | op9XY0 (x : RegIdx) (y : RegIdx) (u : BitVec 4)
  /-- `ANNN`, LD I, NNN: I <- NNN (R130). -/
  | opANNN (nnn : Addr)
  /-- `BNNN`, JP V0, NNN: jump to NNN + V[0] (R98). -/
  | opBNNN (nnn : Addr)
  /-- `CXNN`, RND Vx, NN: V[X] <- rnd & NN (R122). -/
  | opCXNN (x : RegIdx) (nn : Byte)
  /-- `DXYN`, DRW Vx, Vy, N: draw sprite (R142). -/
  | opDXYN (x : RegIdx) (y : RegIdx) (n : BitVec 4)
  /-- `EX9E`, SKP Vx: skip if key pressed (R151). -/
  | opEX9E (x : RegIdx)
  /-- `EXA1`, SKNP Vx: skip if key not pressed (R152). -/
  | opEXA1 (x : RegIdx)
  /-- `FX07`, LD Vx, DT: V[X] <- delay (R154). -/
  | opFX07 (x : RegIdx)
  /-- `FX0A`, LD Vx, K: wait for key (R153). -/
  | opFX0A (x : RegIdx)
  /-- `FX15`, LD DT, Vx: delay <- V[X] (R155). -/
  | opFX15 (x : RegIdx)
  /-- `FX18`, LD ST, Vx: sound <- V[X] (R156). -/
  | opFX18 (x : RegIdx)
  /-- `FX1E`, ADD I, Vx: I <- I + V[X], VF overflow (R131). -/
  | opFX1E (x : RegIdx)
  /-- `FX29`, LD F, Vx: I <- 5 * V[X] (R132). -/
  | opFX29 (x : RegIdx)
  /-- `FX33`, LD B, Vx: store BCD of V[X] (R133). -/
  | opFX33 (x : RegIdx)
  /-- `FX55`, LD [I], Vx: store V[0..X] (R134). -/
  | opFX55 (x : RegIdx)
  /-- `FX65`, LD Vx, [I]: load V[0..X] (R135). -/
  | opFX65 (x : RegIdx)
deriving DecidableEq, Repr

end Sys2Proof
end

