-- ==== Sys2Proof/WellFormed.lean ====
section
/-! DEFINITION. Which terms of `Instr` stand for a word of their own (30_encoding.md R65). Every field has the exact width
of its place in the word, so the one check is that a machine-code call is neither `00E0` nor `00EE`. -/

namespace Sys2Proof

/-- R65: family 0 compares the whole word; 0x00E0 and 0x00EE are `00E0` and `00EE`, every other word is `0NNN`. -/
def Instr.wellFormed : Instr → Bool
  | .op0NNN nnn => nnn != 0x0E0#12 && nnn != 0x0EE#12
  | .op00E0 | .op00EE | .op1NNN _ | .op2NNN _ | .op3XNN _ _ | .op4XNN _ _ | .op5XY0 _ _ _ | .op6XNN _ _ | .op7XNN _ _
  | .op8XY0 _ _ | .op8XY1 _ _ | .op8XY2 _ _ | .op8XY3 _ _ | .op8XY4 _ _ | .op8XY5 _ _ | .op8XY6 _ _ | .op8XY7 _ _
  | .op8XYE _ _ | .op9XY0 _ _ _ | .opANNN _ | .opBNNN _ | .opCXNN _ _ | .opDXYN _ _ _ | .opEX9E _ | .opEXA1 _
  | .opFX07 _ | .opFX0A _ | .opFX15 _ | .opFX18 _ | .opFX1E _ | .opFX29 _ | .opFX33 _ | .opFX55 _ | .opFX65 _ => true

end Sys2Proof
end

