-- ==== Sys2Proof/Decode.lean ====
section
/-! DEFINITION. From a word to an instruction and back (30_encoding.md): the fields (R61), the dispatch by top nibble and
secondary key (R64 to R69), the rejection of the words without a handler (R71), the encoder from the formats (R62), and the
opcode map as a table of rows tried in order (R70). -/

namespace Sys2Proof

/-! ### Fields (R61) -/

/-- `OP`, bits 15:12, the primary dispatch key. -/
def fieldOP (w : Word) : BitVec 4 := w.extractLsb' 12 4
/-- `X`, bits 11:8, as a register index. -/
def fieldX (w : Word) : RegIdx := (w.extractLsb' 8 4).toFin
/-- `Y`, bits 7:4, as a register index. -/
def fieldY (w : Word) : RegIdx := (w.extractLsb' 4 4).toFin
/-- `N`, bits 3:0. -/
def fieldN (w : Word) : BitVec 4 := w.extractLsb' 0 4
/-- `NN`, bits 7:0. -/
def fieldNN (w : Word) : Byte := w.extractLsb' 0 8
/-- `NNN`, bits 11:0. -/
def fieldNNN (w : Word) : Addr := w.extractLsb' 0 12

/-- A register index as the four bits of its field. -/
def regBits (x : RegIdx) : BitVec 4 := BitVec.ofFin x

/-! ### Decoding -/

/-- Why bytes are not decoded: `illegalOpcode w`, the word `w` has no handler (R71, R163); `truncated`, fewer than the two
bytes of a word are given (R60). -/
inductive DecodeError where
  | illegalOpcode (w : Word)
  | truncated
deriving DecidableEq, Repr

/-- Family 0: the whole word is compared (R65). -/
def decodeFamily0 (w : Word) : Instr :=
  if w = 0x00E0#16 then .op00E0 else if w = 0x00EE#16 then .op00EE else .op0NNN (fieldNNN w)

/-- Family 8: the secondary key is `N` (R66). -/
def decodeFamily8 (w : Word) : Except DecodeError Instr :=
  match (fieldN w).toNat with
  | 0x0 => .ok (.op8XY0 (fieldX w) (fieldY w))
  | 0x1 => .ok (.op8XY1 (fieldX w) (fieldY w))
  | 0x2 => .ok (.op8XY2 (fieldX w) (fieldY w))
  | 0x3 => .ok (.op8XY3 (fieldX w) (fieldY w))
  | 0x4 => .ok (.op8XY4 (fieldX w) (fieldY w))
  | 0x5 => .ok (.op8XY5 (fieldX w) (fieldY w))
  | 0x6 => .ok (.op8XY6 (fieldX w) (fieldY w))
  | 0x7 => .ok (.op8XY7 (fieldX w) (fieldY w))
  | 0xE => .ok (.op8XYE (fieldX w) (fieldY w))
  | _ => .error (.illegalOpcode w)

/-- Family E: the secondary key is `NN` (R67). -/
def decodeFamilyE (w : Word) : Except DecodeError Instr :=
  if fieldNN w = 0x9E#8 then .ok (.opEX9E (fieldX w))
  else if fieldNN w = 0xA1#8 then .ok (.opEXA1 (fieldX w))
  else .error (.illegalOpcode w)

/-- Family F: the secondary key is `NN` (R68). -/
def decodeFamilyF (w : Word) : Except DecodeError Instr :=
  if fieldNN w = 0x07#8 then .ok (.opFX07 (fieldX w))
  else if fieldNN w = 0x0A#8 then .ok (.opFX0A (fieldX w))
  else if fieldNN w = 0x15#8 then .ok (.opFX15 (fieldX w))
  else if fieldNN w = 0x18#8 then .ok (.opFX18 (fieldX w))
  else if fieldNN w = 0x1E#8 then .ok (.opFX1E (fieldX w))
  else if fieldNN w = 0x29#8 then .ok (.opFX29 (fieldX w))
  else if fieldNN w = 0x33#8 then .ok (.opFX33 (fieldX w))
  else if fieldNN w = 0x55#8 then .ok (.opFX55 (fieldX w))
  else if fieldNN w = 0x65#8 then .ok (.opFX65 (fieldX w))
  else .error (.illegalOpcode w)

/-- The instruction a word selects: primary dispatch on `OP` (R64), then the family's secondary key. The last arm is not
reached, since `OP` has four bits. -/
def decodeWord (w : Word) : Except DecodeError Instr :=
  match (fieldOP w).toNat with
  | 0x0 => .ok (decodeFamily0 w)
  | 0x1 => .ok (.op1NNN (fieldNNN w))
  | 0x2 => .ok (.op2NNN (fieldNNN w))
  | 0x3 => .ok (.op3XNN (fieldX w) (fieldNN w))
  | 0x4 => .ok (.op4XNN (fieldX w) (fieldNN w))
  | 0x5 => .ok (.op5XY0 (fieldX w) (fieldY w) (fieldN w))
  | 0x6 => .ok (.op6XNN (fieldX w) (fieldNN w))
  | 0x7 => .ok (.op7XNN (fieldX w) (fieldNN w))
  | 0x8 => decodeFamily8 w
  | 0x9 => .ok (.op9XY0 (fieldX w) (fieldY w) (fieldN w))
  | 0xA => .ok (.opANNN (fieldNNN w))
  | 0xB => .ok (.opBNNN (fieldNNN w))
  | 0xC => .ok (.opCXNN (fieldX w) (fieldNN w))
  | 0xD => .ok (.opDXYN (fieldX w) (fieldY w) (fieldN w))
  | 0xE => decodeFamilyE w
  | 0xF => decodeFamilyF w
  | _ => .error (.illegalOpcode w)

/-- Two bytes as the word the fetch reads, high byte first (R41, R42). -/
def wordOfBytes (hi lo : Byte) : Word := hi ++ lo
/-- The byte of a word that stands at the lower address (R41). -/
def highByte (w : Word) : Byte := w.extractLsb' 8 8
/-- The byte of a word that stands at the higher address (R41). -/
def lowByte (w : Word) : Byte := w.extractLsb' 0 8

/-- Decoding a list of bytes: the first instruction and the bytes after it (R60). -/
def decodeBytes : List Byte → Except DecodeError (Instr × List Byte)
  | hi :: lo :: rest =>
    match decodeWord (wordOfBytes hi lo) with
    | .ok i => .ok (i, rest)
    | .error e => .error e
  | [_] => .error .truncated
  | [] => .error .truncated

/-! ### Encoding (R62) -/

/-- Format A: `OP` and `NNN`. -/
def encodeA (op : BitVec 4) (nnn : Addr) : Word := op ++ nnn
/-- Format RI: `OP`, `X` and `NN`. -/
def encodeRI (op : BitVec 4) (x : RegIdx) (nn : Byte) : Word := op ++ regBits x ++ nn
/-- Formats RR and RRN: `OP`, `X`, `Y` and the low nibble (function nibble, `N`, or the ignored nibble of R69). -/
def encodeRR (op : BitVec 4) (x y : RegIdx) (n : BitVec 4) : Word := op ++ regBits x ++ regBits y ++ n
/-- Format RF: `OP`, `X` and the function byte. -/
def encodeRF (op : BitVec 4) (x : RegIdx) (f : Byte) : Word := op ++ regBits x ++ f

/-- The word of an instruction, from the format and the fixed bits of its row (R62, R70). -/
def encode : Instr → Word
  | .op00E0 => 0x00E0#16
  | .op00EE => 0x00EE#16
  | .op0NNN nnn => encodeA 0x0 nnn
  | .op1NNN nnn => encodeA 0x1 nnn
  | .op2NNN nnn => encodeA 0x2 nnn
  | .op3XNN x nn => encodeRI 0x3 x nn
  | .op4XNN x nn => encodeRI 0x4 x nn
  | .op5XY0 x y u => encodeRR 0x5 x y u
  | .op6XNN x nn => encodeRI 0x6 x nn
  | .op7XNN x nn => encodeRI 0x7 x nn
  | .op8XY0 x y => encodeRR 0x8 x y 0x0
  | .op8XY1 x y => encodeRR 0x8 x y 0x1
  | .op8XY2 x y => encodeRR 0x8 x y 0x2
  | .op8XY3 x y => encodeRR 0x8 x y 0x3
  | .op8XY4 x y => encodeRR 0x8 x y 0x4
  | .op8XY5 x y => encodeRR 0x8 x y 0x5
  | .op8XY6 x y => encodeRR 0x8 x y 0x6
  | .op8XY7 x y => encodeRR 0x8 x y 0x7
  | .op8XYE x y => encodeRR 0x8 x y 0xE
  | .op9XY0 x y u => encodeRR 0x9 x y u
  | .opANNN nnn => encodeA 0xA nnn
  | .opBNNN nnn => encodeA 0xB nnn
  | .opCXNN x nn => encodeRI 0xC x nn
  | .opDXYN x y n => encodeRR 0xD x y n
  | .opEX9E x => encodeRF 0xE x 0x9E
  | .opEXA1 x => encodeRF 0xE x 0xA1
  | .opFX07 x => encodeRF 0xF x 0x07
  | .opFX0A x => encodeRF 0xF x 0x0A
  | .opFX15 x => encodeRF 0xF x 0x15
  | .opFX18 x => encodeRF 0xF x 0x18
  | .opFX1E x => encodeRF 0xF x 0x1E
  | .opFX29 x => encodeRF 0xF x 0x29
  | .opFX33 x => encodeRF 0xF x 0x33
  | .opFX55 x => encodeRF 0xF x 0x55
  | .opFX65 x => encodeRF 0xF x 0x65

/-- The bytes of a word in the order of their addresses (R41). -/
def bytesOfWord (w : Word) : List Byte := [highByte w, lowByte w]

/-! ### The opcode map as a table (R70) -/

/-- A row of the opcode map: a word `w` matches when `w & mask = bits`; `build` reads the row's fields. -/
structure OpcodeRow where
  bits : Word
  mask : Word
  build : Word → Instr

/-- The 35 rows of R70, in their order. -/
def opcodeMap : List OpcodeRow :=
  [ ⟨0x00E0, 0xFFFF, fun _ => .op00E0⟩,
    ⟨0x00EE, 0xFFFF, fun _ => .op00EE⟩,
    ⟨0x0000, 0xF000, fun w => .op0NNN (fieldNNN w)⟩,
    ⟨0x1000, 0xF000, fun w => .op1NNN (fieldNNN w)⟩,
    ⟨0x2000, 0xF000, fun w => .op2NNN (fieldNNN w)⟩,
    ⟨0x3000, 0xF000, fun w => .op3XNN (fieldX w) (fieldNN w)⟩,
    ⟨0x4000, 0xF000, fun w => .op4XNN (fieldX w) (fieldNN w)⟩,
    ⟨0x5000, 0xF000, fun w => .op5XY0 (fieldX w) (fieldY w) (fieldN w)⟩,
    ⟨0x6000, 0xF000, fun w => .op6XNN (fieldX w) (fieldNN w)⟩,
    ⟨0x7000, 0xF000, fun w => .op7XNN (fieldX w) (fieldNN w)⟩ ] ++
  [ ⟨0x8000, 0xF00F, fun w => .op8XY0 (fieldX w) (fieldY w)⟩,
    ⟨0x8001, 0xF00F, fun w => .op8XY1 (fieldX w) (fieldY w)⟩,
    ⟨0x8002, 0xF00F, fun w => .op8XY2 (fieldX w) (fieldY w)⟩,
    ⟨0x8003, 0xF00F, fun w => .op8XY3 (fieldX w) (fieldY w)⟩,
    ⟨0x8004, 0xF00F, fun w => .op8XY4 (fieldX w) (fieldY w)⟩,
    ⟨0x8005, 0xF00F, fun w => .op8XY5 (fieldX w) (fieldY w)⟩,
    ⟨0x8006, 0xF00F, fun w => .op8XY6 (fieldX w) (fieldY w)⟩,
    ⟨0x8007, 0xF00F, fun w => .op8XY7 (fieldX w) (fieldY w)⟩,
    ⟨0x800E, 0xF00F, fun w => .op8XYE (fieldX w) (fieldY w)⟩,
    ⟨0x9000, 0xF000, fun w => .op9XY0 (fieldX w) (fieldY w) (fieldN w)⟩ ] ++
  [ ⟨0xA000, 0xF000, fun w => .opANNN (fieldNNN w)⟩,
    ⟨0xB000, 0xF000, fun w => .opBNNN (fieldNNN w)⟩,
    ⟨0xC000, 0xF000, fun w => .opCXNN (fieldX w) (fieldNN w)⟩,
    ⟨0xD000, 0xF000, fun w => .opDXYN (fieldX w) (fieldY w) (fieldN w)⟩,
    ⟨0xE09E, 0xF0FF, fun w => .opEX9E (fieldX w)⟩,
    ⟨0xE0A1, 0xF0FF, fun w => .opEXA1 (fieldX w)⟩ ] ++
  [ ⟨0xF007, 0xF0FF, fun w => .opFX07 (fieldX w)⟩,
    ⟨0xF00A, 0xF0FF, fun w => .opFX0A (fieldX w)⟩,
    ⟨0xF015, 0xF0FF, fun w => .opFX15 (fieldX w)⟩,
    ⟨0xF018, 0xF0FF, fun w => .opFX18 (fieldX w)⟩,
    ⟨0xF01E, 0xF0FF, fun w => .opFX1E (fieldX w)⟩,
    ⟨0xF029, 0xF0FF, fun w => .opFX29 (fieldX w)⟩,
    ⟨0xF033, 0xF0FF, fun w => .opFX33 (fieldX w)⟩,
    ⟨0xF055, 0xF0FF, fun w => .opFX55 (fieldX w)⟩,
    ⟨0xF065, 0xF0FF, fun w => .opFX65 (fieldX w)⟩ ]

/-- Decoding by the table: the first row the word matches (R70), or an illegal opcode (R71). -/
def decodeByMap (w : Word) : Except DecodeError Instr :=
  match opcodeMap.find? (fun r => w &&& r.mask == r.bits) with
  | some r => .ok (r.build w)
  | none => .error (.illegalOpcode w)

/-! ### The decoder on a table word -/

/-- The bytes of the instruction whose bits are `w`, of which the table gives `nbits`; bits above are 0, and an
instruction has 16 bits (R60). -/
def tableBytes (nbits w : Nat) : List Byte := bytesOfWord (BitVec.ofNat 16 (w % 2 ^ nbits))

/-- The instruction the decoder reads from the table word `w`. -/
def decodeTableWord (nbits w : Nat) : Option Instr :=
  match decodeBytes (tableBytes nbits w) with
  | .ok (i, _) => some i
  | .error _ => none

end Sys2Proof
end

