-- ==== Sys2Proof/Machine/State.lean ====
section
/-! DEFINITION. The state of the machine (10_state.md R10 to R31), its fatal conditions (60_exceptions.md R160), its events
(R181), and the state after reset (R27, R190). -/

namespace Sys2Proof.Machine

/-- Memory (R23, R40): the cells that differ from what an unlisted address reads as, by rising address. -/
abbrev Memory := List Host.Cell

/-- The screen (R22, R143): 32 rows of 64 bits, column 0 the most significant bit of a row. -/
abbrev Screen := Vector (BitVec 64) 32

/-- The four fatal conditions (R160). The spec describes their entry (R165): raising one writes the latches and the step
goes on to that next state, so no step answers `.fault` with one of these; they name the code in the latches and the verdict
on a halted state (Safety.lean). Log entry 6. -/
inductive Fault where
  /-- Raised by every `0NNN` (R91, R161); safe: the entry the spec describes is taken. -/
  | unsupportedMachineCall
  /-- Raised by `00EE` on an empty stack (R18, R162); safe: the entry the spec describes is taken. -/
  | stackUnderflow
  /-- Raised by dispatch on a word without a handler (R71, R163); safe: the entry the spec describes is taken. -/
  | illegalOpcode
  /-- Raised by `2NNN` on a full stack (R17, R164); safe: the entry the spec describes is taken. -/
  | stackOverflow
deriving DecidableEq, Repr

/-- What the model gives no meaning. -/
inductive Refusal where
  /-- Answered by exec's arm of an instruction that has no meaning yet; safe. No arm is left so. -/
  | notModelled (mnemonic : String)
  /-- Answered by a `reset` event whose image is longer than 3584 bytes, which the spec has the reset procedure refuse
  (R48, R190, U16); safe. No instruction answers it. -/
  | imageTooLong
deriving DecidableEq, Repr

/-- The atomic events of the environment (R181, R182). -/
inductive Event where
  /-- One fetch-decode-execute cycle (R80). -/
  | step
  /-- The end of a 1/60 s window (R175). -/
  | tick
  /-- The host drives the keypad (R180). -/
  | setKeys (keys : BitVec 16)
  /-- The host resets the core with a program image (R190). -/
  | reset (image : List Byte)
deriving DecidableEq, Repr

/-- Everything the spec gives the machine, and two fields of the model's own (`rndIndex`, `schedule`). -/
structure State where
  /-- General registers (R10); `V[0xF]` is VF (R11). -/
  V : Vector Byte 16
  /-- Index register (R12). -/
  I : Word
  /-- Program counter (R13, R14). -/
  pc : Word
  /-- Return stack (R15). -/
  stack : Vector Word 16
  /-- Entries of the stack in use, 0 to 16 (R16). -/
  sp : Fin 17
  /-- Delay timer (R19). -/
  delay : Byte
  /-- Sound timer (R20). -/
  sound : Byte
  /-- Key states, bit `k` for key `k` (R21). -/
  keypad : BitVec 16
  /-- Framebuffer (R22). -/
  screen : Screen
  /-- Memory (R23). -/
  memory : Memory
  /-- The latest event was a step that raised `delay` (R24). -/
  dtFresh : Bool
  /-- Halt latch (R25). -/
  halted : Bool
  /-- Fault code latch (R25, R160). -/
  faultCode : BitVec 3
  /-- Fault address latch (R25). -/
  faultPc : Addr
  /-- Fault word latch (R25). -/
  faultWord : Word
  /-- Beep request output (R30). -/
  beepReq : Bool
  /-- The model's own: how many bytes `CXNN` has sampled (log entry 1). -/
  rndIndex : Nat
  /-- The model's own: the events pending, earliest first; none pending stands for `step` (R181; log entry 2). -/
  schedule : List Event
deriving DecidableEq, Repr

/-- The state after `Reset(PROGRAM)` with an empty image (R27, R190). The spec gives no value for the stack's entries,
`fault_pc` and `fault_word` (log entry 3), leaves `keypad` to the host (log entry 4), and knows neither `rndIndex` nor
`schedule` (log entries 1, 2). -/
def State.reset : State where
  V := Vector.replicate 16 0
  I := 0x0000
  pc := 0x0200
  stack := Vector.replicate 16 0
  sp := 0
  delay := 0
  sound := 0
  keypad := 0
  screen := Vector.replicate 32 0
  memory := []
  dtFresh := false
  halted := false
  faultCode := 0
  faultPc := 0
  faultWord := 0
  beepReq := false
  rndIndex := 0
  schedule := []

end Sys2Proof.Machine
end

