-- ==== Sys2Proof/Machine/Memory.lean ====
section
/-! DEFINITION. Memory (20_memory.md): the reset contents (R46, R47), reading and writing one byte, the canonical form, the
two-byte fetch (R42), and the program image (R48). -/

namespace Sys2Proof.Machine

/-- The font table (R47): glyphs 0 to F, five bytes each, top row first. -/
def fontTable : List Byte :=
  [0xF0, 0x90, 0x90, 0x90, 0xF0] ++ [0x20, 0x60, 0x20, 0x20, 0x70] ++
  [0xF0, 0x10, 0xF0, 0x80, 0xF0] ++ [0xF0, 0x10, 0xF0, 0x10, 0xF0] ++
  [0x90, 0x90, 0xF0, 0x10, 0x10] ++ [0xF0, 0x80, 0xF0, 0x10, 0xF0] ++
  [0xF0, 0x80, 0xF0, 0x90, 0xF0] ++ [0xF0, 0x10, 0x20, 0x40, 0x40] ++
  [0xF0, 0x90, 0xF0, 0x90, 0xF0] ++ [0xF0, 0x90, 0xF0, 0x10, 0xF0] ++
  [0xF0, 0x90, 0xF0, 0x90, 0x90] ++ [0xE0, 0x90, 0xE0, 0x90, 0xE0] ++
  [0xF0, 0x80, 0x80, 0x80, 0xF0] ++ [0xE0, 0x90, 0x90, 0x90, 0xE0] ++
  [0xF0, 0x80, 0xF0, 0x80, 0xF0] ++ [0xF0, 0x80, 0xF0, 0x80, 0x80]

/-- What an address that is not listed reads as: the font byte, or 0x00 beyond the font (R27, R46; log entry 9). -/
def Memory.unlisted (a : Nat) : Byte := fontTable.getD a 0

/-- The byte that a list of cells holds for address `a`. -/
def Memory.lookup : Memory → Nat → Byte
  | [], a => Memory.unlisted a
  | c :: m, a => if c.1 = a then c.2 else Memory.lookup m a

/-- `MemRead(a, 1)` (R8, R45). -/
def Memory.read (m : Memory) (a : Addr) : Byte := Memory.lookup m a.toNat

/-- Puts a cell into a list at its place by rising address. -/
def Memory.insertCell (c : Host.Cell) : Memory → Memory
  | [] => [c]
  | d :: m => if c.1 < d.1 then c :: d :: m else d :: Memory.insertCell c m

/-- `MemWrite(a, 1, v)` (R8, R45). The form stays canonical: the old cell goes, and a new one comes only where `v` is not
what the unlisted address reads as. -/
def Memory.write (m : Memory) (a : Addr) (v : Byte) : Memory :=
  if v = Memory.unlisted a.toNat then m.filter (fun c => c.1 != a.toNat)
  else Memory.insertCell (a.toNat, v) (m.filter (fun c => c.1 != a.toNat))

/-- The canonical form: addresses strictly rising and inside memory, no cell that an unlisted address would read as. -/
abbrev Memory.wf (m : Memory) : Prop :=
  m.Pairwise (fun c d => c.1 < d.1) ∧ ∀ c ∈ m, c.1 < Config.memSize ∧ c.2 ≠ Memory.unlisted c.1

/-- The effective address `EA(k) = (base + k) mod 0x1000` (R44); with `k = 1`, also the second byte of a fetch (R42). -/
def ea (base : Word) (k : Nat) : Addr := BitVec.ofNat 12 (base.toNat + k)

/-- `MemRead(a, 2)` (R42): big-endian, the second address wrapping. -/
def Memory.fetchWord (m : Memory) (a : Addr) : Word := wordOfBytes (m.read a) (m.read (a + 1))

/-- Stores bytes at consecutive addresses from `a` on, wrapping (R42, R44). -/
def Memory.writeBytes (m : Memory) (a : Addr) : List Byte → Memory
  | [] => m
  | b :: bs => Memory.writeBytes (m.write a b) (a + 1) bs

/-- Memory after reset with an image: the font and zeros, and byte `i` of the image at 0x200 + i (R48, R190). -/
def Memory.withImage (image : List Byte) : Memory := Memory.writeBytes [] (BitVec.ofNat 12 Config.programBase) image

end Sys2Proof.Machine
end

