-- ==== Sys2Proof/Machine/Ops.lean ====
section
/-! DEFINITION. The named operations over registers, memory, stack and latches: every update of State, `push` and `pop`
(10_state.md R17, R18), the writes of `pc` (R14), and the entry of a fatal condition (60_exceptions.md R165). -/

namespace Sys2Proof.Machine

/-- What a meaning and a step answer. -/
abbrev Result := Host.Outcome State Fault Refusal

/-! ### Reads and updates of single elements -/

/-- `V[x]` (R8, R10). -/
def State.readV (s : State) (x : RegIdx) : Byte := s.V[x]
/-- `V[x] <- b` (R8, R10). -/
def State.writeV (s : State) (x : RegIdx) (b : Byte) : State := { s with V := s.V.set x.val b x.isLt }
/-- All general registers at once (R135). -/
def State.setRegs (s : State) (V : Vector Byte 16) : State := { s with V := V }
/-- `I <- a` (R12). -/
def State.setI (s : State) (a : Word) : State := { s with I := a }
/-- `pc <- a` (R8). -/
def State.setPc (s : State) (a : Word) : State := { s with pc := a }
/-- The stack's entries and depth (R15, R16). -/
def State.setStack (s : State) (entries : Vector Word 16) (depth : Fin 17) : State := { s with stack := entries, sp := depth }
/-- `delay <- b` (R19). -/
def State.setDelay (s : State) (b : Byte) : State := { s with delay := b }
/-- `sound <- b` (R20). -/
def State.setSound (s : State) (b : Byte) : State := { s with sound := b }
/-- `keypad <- k`, by the host (R21). -/
def State.setKeypad (s : State) (k : BitVec 16) : State := { s with keypad := k }
/-- The screen (R22). -/
def State.setScreen (s : State) (scr : Screen) : State := { s with screen := scr }
/-- Memory (R23). -/
def State.setMemory (s : State) (m : Memory) : State := { s with memory := m }
/-- `dt_fresh <- b` (R24). -/
def State.setDtFresh (s : State) (b : Bool) : State := { s with dtFresh := b }
/-- `beep_req <- b` (R30). -/
def State.setBeepReq (s : State) (b : Bool) : State := { s with beepReq := b }
/-- The fault latches (R25). -/
def State.setLatches (s : State) (h : Bool) (code : BitVec 3) (a : Addr) (w : Word) : State :=
  { s with halted := h, faultCode := code, faultPc := a, faultWord := w }
/-- The number of the next random byte (log entry 1). -/
def State.setRndIndex (s : State) (n : Nat) : State := { s with rndIndex := n }
/-- The pending events (log entry 2). -/
def State.setSchedule (s : State) (es : List Event) : State := { s with schedule := es }

/-- `MemRead(a, 1)` in a state. -/
def State.readByte (s : State) (a : Addr) : Byte := s.memory.read a
/-- `MemWrite(a, 1, v)` in a state. -/
def State.writeByte (s : State) (a : Addr) (v : Byte) : State := s.setMemory (s.memory.write a v)

/-! ### The program counter (R14, R82) -/

/-- `(pc + 2) mod 0x1000`: the fetch advance and a taken skip. (0x1000 divides 2^16, so the wrap of the word is no matter.) -/
def nextPc (pc : Word) : Word := (pc + 2#16) % 0x1000#16
/-- `(pc - 2) mod 0x1000`: what `FX0A` writes while it waits (R153). -/
def prevPc (pc : Word) : Word := (pc - 2#16) % 0x1000#16
/-- The fetch advance, before dispatch (R82). -/
def State.advance (s : State) : State := s.setPc (nextPc s.pc)
/-- A conditional skip: `pc` moves by 2 more when the condition holds (R94). -/
def State.skipIf (s : State) (c : Bool) : State := if c then s.setPc (nextPc s.pc) else s
/-- The address this step fetched from, seen from inside the instruction, where `pc` is already advanced (R82, R165; log
entry 7). -/
def State.instrAddr (s : State) : Addr := (prevPc s.pc).setWidth 12

/-! ### Fatal conditions (R160, R165) -/

/-- The numeric code of a fatal condition (R160). -/
def Fault.code : Fault → BitVec 3
  | .unsupportedMachineCall => 1
  | .stackUnderflow => 2
  | .illegalOpcode => 3
  | .stackOverflow => 4

/-- `raise F(a, w)`: the latches are written and nothing else (R165). -/
def raiseAt (f : Fault) (a : Addr) (w : Word) (s : State) : State := s.setLatches true f.code a w

/-- `raise F(a, w)` from inside the instruction whose word is `w` (R165). -/
def raise (f : Fault) (w : Word) (s : State) : State := raiseAt f s.instrAddr w s

/-! ### The stack (R17, R18) -/

/-- `push(v)`: the check comes before any write (R17). -/
def push (v : Word) (s : State) : Except Fault State :=
  if h : s.sp.val < 16 then .ok (s.setStack (s.stack.set s.sp.val v h) ⟨s.sp.val + 1, by omega⟩)
  else .error .stackOverflow

/-- `pop()`: the value and the state with one entry less (R18). -/
def pop (s : State) : Except Fault (Word × State) :=
  if h : 0 < s.sp.val then
    .ok (s.stack[s.sp.val - 1]'(by omega), s.setStack s.stack ⟨s.sp.val - 1, by omega⟩)
  else .error .stackUnderflow

end Sys2Proof.Machine
end

