-- ==== Sys2Proof/Machine/Flags.lean ====
section
/-! DEFINITION. The results and flags of register arithmetic (42_register_alu.md R110), the overflow of `I`
(43_index_memory.md R131), and the one way an ALU instruction writes a result and a flag (40_step_cycle.md R84). -/

namespace Sys2Proof.Machine

/-- A flag as the byte that VF holds, 0 or 1 (R11). -/
def flagByte (c : Bool) : Byte := if c then 1 else 0

/-- `(a + b) mod 256` (R110). -/
def sum8 (a b : Byte) : Byte := BitVec.ofNat 8 ((a.toNat + b.toNat) % 256)
/-- Carry: 1 iff the sum exceeds 255 (R110, R117). -/
def carry (a b : Byte) : Bool := decide (a.toNat + b.toNat > 255)

/-- `(a - b) mod 256`, the non-negative remainder, wrapped when `a < b` (R110, R118). -/
def diff8 (a b : Byte) : Byte := BitVec.ofNat 8 ((a.toNat + 256 - b.toNat) % 256)
/-- Not-borrow: 1 iff `a >= b` (R110, R118). -/
def notBorrow (a b : Byte) : Bool := decide (a.toNat ≥ b.toNat)

/-- Shift right by one, `b div 2` (R110, R119). -/
def shiftRight1 (b : Byte) : Byte := BitVec.ofNat 8 (b.toNat / 2)
/-- The bit shifted out to the right, bit 0 (R119). -/
def bitOutRight (b : Byte) : Bool := b.getLsbD 0
/-- Shift left by one, `(2 * b) mod 256` (R110, R121). -/
def shiftLeft1 (b : Byte) : Byte := BitVec.ofNat 8 (2 * b.toNat % 256)
/-- The bit shifted out to the left, bit 7 (R121). -/
def bitOutLeft (b : Byte) : Bool := b.getLsbD 7

/-- Overflow of `I + V[X]` past 0xFFF (R131). -/
def indexOverflow (i : Word) (b : Byte) : Bool := decide (i.toNat + b.toNat > 0xFFF)

/-- `VF <- c` (R11). -/
def State.writeFlag (s : State) (c : Bool) : State := s.writeV vF (flagByte c)

/-- The result into `V[x]` first, the flag into VF last: with `x = 0xF` the flag wins (R84). -/
def State.writeResultFlag (s : State) (x : RegIdx) (r : Byte) (c : Bool) : State := (s.writeV x r).writeFlag c

end Sys2Proof.Machine
end

