-- ==== Sys2Proof/Machine/Alu.lean ====
section
/-! DEFINITION. Register load, arithmetic, logic, random (42_register_alu.md). Operands are read before the first write
(40_step_cycle.md R83); a flag is written last (R84). -/

namespace Sys2Proof.Machine

/-- `6XNN` (R111): `V[X] <- NN`. -/
def exec6XNN (x : RegIdx) (nn : Byte) (s : State) : Result := .next (s.writeV x nn)

/-- `7XNN` (R112): `V[X] <- (V[X] + NN) mod 256`; VF is not touched. -/
def exec7XNN (x : RegIdx) (nn : Byte) (s : State) : Result := .next (s.writeV x (sum8 (s.readV x) nn))

/-- `8XY0` (R113): `V[X] <- V[Y]`. -/
def exec8XY0 (x y : RegIdx) (s : State) : Result := .next (s.writeV x (s.readV y))

/-- `8XY1` (R114): bitwise OR; VF is not touched. -/
def exec8XY1 (x y : RegIdx) (s : State) : Result := .next (s.writeV x (s.readV x ||| s.readV y))

/-- `8XY2` (R115): bitwise AND; VF is not touched. -/
def exec8XY2 (x y : RegIdx) (s : State) : Result := .next (s.writeV x (s.readV x &&& s.readV y))

/-- `8XY3` (R116): bitwise exclusive OR; VF is not touched. -/
def exec8XY3 (x y : RegIdx) (s : State) : Result := .next (s.writeV x (s.readV x ^^^ s.readV y))

/-- `8XY4` (R117): add, VF = carry. -/
def exec8XY4 (x y : RegIdx) (s : State) : Result :=
  .next (s.writeResultFlag x (sum8 (s.readV x) (s.readV y)) (carry (s.readV x) (s.readV y)))

/-- `8XY5` (R118): `V[X] - V[Y]`, VF = not-borrow. -/
def exec8XY5 (x y : RegIdx) (s : State) : Result :=
  .next (s.writeResultFlag x (diff8 (s.readV x) (s.readV y)) (notBorrow (s.readV x) (s.readV y)))

/-- `8XY6` (R119): `V[Y]` shifted right by one, VF = its old bit 0. -/
def exec8XY6 (x y : RegIdx) (s : State) : Result :=
  .next (s.writeResultFlag x (shiftRight1 (s.readV y)) (bitOutRight (s.readV y)))

/-- `8XY7` (R120): `V[Y] - V[X]`, VF = not-borrow. -/
def exec8XY7 (x y : RegIdx) (s : State) : Result :=
  .next (s.writeResultFlag x (diff8 (s.readV y) (s.readV x)) (notBorrow (s.readV y) (s.readV x)))

/-- `8XYE` (R121): `V[Y]` shifted left by one, VF = its old bit 7. -/
def exec8XYE (x y : RegIdx) (s : State) : Result :=
  .next (s.writeResultFlag x (shiftLeft1 (s.readV y)) (bitOutLeft (s.readV y)))

/-- `V[X] <- r & NN` for the sampled byte `r`, which is then used up (R122, R179). -/
def maskedRandom (r : Byte) (x : RegIdx) (nn : Byte) (s : State) : State :=
  (s.writeV x (r &&& nn)).setRndIndex (s.rndIndex + 1)

/-- `CXNN` (R122): `V[X] <- rnd & NN`, `rnd` a free value (log entry 1). -/
def execCXNN (x : RegIdx) (nn : Byte) (s : State) : Result :=
  .next (maskedRandom (Config.rnd s.rndIndex) x nn s)

end Sys2Proof.Machine
end

