-- ==== Sys2Proof/Machine/Operands.lean ====
section
/-! DEFINITION. The operand forms (30_encoding.md R63): addresses zero-extended to 16 bits, the indexed jump target (R98),
the key index (45_keypad_timers.md R150), the key chosen by `FX0A` (R153), the font address (R132), the decimal digits
(R133), the masked `I` update (R134, R135), and the register runs of `FX55` and `FX65`. -/

namespace Sys2Proof.Machine

/-- `zext_16(NNN)` (R63). -/
def zext16 (nnn : Addr) : Word := nnn.setWidth 16

/-- `(NNN + V[0]) mod 0x1000` (R98). -/
def indexedTarget (nnn : Addr) (v0 : Byte) : Word := BitVec.ofNat 16 ((nnn.toNat + v0.toNat) % Config.memSize)

/-- The key an index register names: its low four bits (R150). -/
def keyIndex (b : Byte) : Nat := (b &&& 0xF).toNat

/-- `keypad[k]` (R21). -/
def keyDown (keypad : BitVec 16) (k : Nat) : Bool := keypad.getLsbD k

/-- The smallest key that is down (R153); 0 where none is, which `FX0A` does not use. -/
def lowestKey (keypad : BitVec 16) : Nat := ((List.range 16).find? (fun k => keyDown keypad k)).getD 0

/-- `V[X] * 5`, at most 0x4FB (R132). -/
def glyphAddress (b : Byte) : Word := BitVec.ofNat 16 (b.toNat * 5)

/-- The sum `(I + n) mod 0x1000` that an arithmetic update of `I` stores (R12, R131, R134, R135). -/
def indexPlus (i : Word) (n : Nat) : Word := BitVec.ofNat 16 ((i.toNat + n) % Config.memSize)

/-- The hundreds digit (R133). -/
def hundreds (b : Byte) : Byte := BitVec.ofNat 8 (b.toNat / 100)
/-- The tens digit (R133). -/
def tens (b : Byte) : Byte := BitVec.ofNat 8 (b.toNat / 10 % 10)
/-- The ones digit (R133). -/
def ones (b : Byte) : Byte := BitVec.ofNat 8 (b.toNat % 10)

/-- Stores `V[0]`, ..., `V[n-1]` at `EA(0)`, ..., `EA(n-1)`, ascending (R134). -/
def storeRegs (V : Vector Byte 16) (base : Word) : Nat → Memory → Memory
  | 0, m => m
  | n + 1, m => (storeRegs V base n m).write (ea base n) (V[Fin.ofNat 16 n])

/-- Loads `V[0]`, ..., `V[n-1]` from `EA(0)`, ..., `EA(n-1)`, ascending (R135). -/
def loadRegs (m : Memory) (base : Word) : Nat → Vector Byte 16 → Vector Byte 16
  | 0, V => V
  | n + 1, V => (loadRegs m base n V).set (Fin.ofNat 16 n).val (m.read (ea base n)) (Fin.ofNat 16 n).isLt

end Sys2Proof.Machine
end

