-- ==== Sys2Proof/Machine/Control.lean ====
section
/-! DEFINITION. Control transfer (41_control_flow.md): the `execute` part of R80; on entry `pc` holds the address of the
instruction that follows in memory (R82). -/

namespace Sys2Proof.Machine

/-- `00EE` (R90): `pc <- pop()`, StackUnderflow on an empty stack (R162). -/
def exec00EE (s : State) : Result :=
  match pop s with
  | .ok (v, t) => .next (t.setPc v)
  | .error f => .next (raise f (encode .op00EE) s)

/-- `0NNN` (R91): always UnsupportedMachineCall (R161). -/
def exec0NNN (nnn : Addr) (s : State) : Result :=
  .next (raise .unsupportedMachineCall (encode (.op0NNN nnn)) s)

/-- `1NNN` (R92): `pc <- NNN`. -/
def exec1NNN (nnn : Addr) (s : State) : Result := .next (s.setPc (zext16 nnn))

/-- `2NNN` (R93): push the advanced `pc`, then `pc <- NNN`; StackOverflow on a full stack (R164). -/
def exec2NNN (nnn : Addr) (s : State) : Result :=
  match push s.pc s with
  | .ok t => .next (t.setPc (zext16 nnn))
  | .error f => .next (raise f (encode (.op2NNN nnn)) s)

/-- `3XNN` (R94): skip if `V[X] = NN`. -/
def exec3XNN (x : RegIdx) (nn : Byte) (s : State) : Result := .next (s.skipIf (s.readV x == nn))

/-- `4XNN` (R95): skip if `V[X] != NN`. -/
def exec4XNN (x : RegIdx) (nn : Byte) (s : State) : Result := .next (s.skipIf (s.readV x != nn))

/-- `5XY0` (R96): skip if `V[X] = V[Y]`. -/
def exec5XY0 (x y : RegIdx) (s : State) : Result := .next (s.skipIf (s.readV x == s.readV y))

/-- `9XY0` (R97): skip if `V[X] != V[Y]`. -/
def exec9XY0 (x y : RegIdx) (s : State) : Result := .next (s.skipIf (s.readV x != s.readV y))

/-- `BNNN` (R98): `pc <- (NNN + V[0]) mod 0x1000`; `I` is not changed. -/
def execBNNN (nnn : Addr) (s : State) : Result := .next (s.setPc (indexedTarget nnn (s.readV 0)))

end Sys2Proof.Machine
end

