-- ==== Sys2Proof/Machine/Display.lean ====
section
/-! DEFINITION. Display instructions (44_display.md): pixels of the screen (10_state.md R22), drawing by pixels (R142) and by
the row buffer (R143). `DXYN` draws by pixels; that the row buffer computes the same is one of the statements. -/

namespace Sys2Proof.Machine

/-- `screen[y][x]` (R8, R22); false outside the 64 x 32 pixels. -/
def Screen.pixel (scr : Screen) (x y : Nat) : Bool := if h : y < 32 then scr[y].getMsbD x else false

/-- The row word with the one bit of column `x` set, for `x < 64` (R143). -/
def columnBit (x : Nat) : BitVec 64 := 1#64 <<< (63 - x)

/-- `screen[y][x] <- screen[y][x] xor 1` for a pixel on the screen (R142). -/
def Screen.toggle (scr : Screen) (x y : Nat) : Screen :=
  if h : y < 32 then scr.set y (scr[y] ^^^ columnBit x) h else scr

/-- All pixels unlit (R141). -/
def Screen.clear : Screen := Vector.replicate 32 0

/-- The flat bit array the render collaborator reads: pixel `(x, y)` at index `y * 64 + x` (R22, R178). -/
def Screen.flat (scr : Screen) (index : Nat) : Bool := scr.pixel (index % 64) (index / 64)

/-- What a draw carries along: the screen and the collision bit `c` (R142). -/
abbrev Draw := Screen × Bool

/-- One sprite pixel of R142: column `col` of the sprite byte `b`, on row `y`. -/
def drawPixel (b : Byte) (vx y : Nat) (d : Draw) (col : Nat) : Draw :=
  if vx + col ≤ 63 ∧ b.getMsbD col = true then
    (d.1.toggle (vx + col) y, d.2 || d.1.pixel (vx + col) y)
  else d

/-- One sprite row of R142. -/
def drawRow (m : Memory) (base : Word) (vx vy : Nat) (d : Draw) (row : Nat) : Draw :=
  if vy + row ≤ 31 then
    (List.range 8).foldl (drawPixel (m.read (ea base row)) vx (vy + row)) d
  else d

/-- The sprite of R142: `n` rows, from the screen as it is and no collision. -/
def drawSprite (m : Memory) (base : Word) (vx vy n : Nat) (scr : Screen) : Draw :=
  (List.range n).foldl (drawRow m base vx vy) (scr, false)

/-- The mask of one sprite row, `((zext_72(b) << 64) >> (vx + 8))[63:0]` for `vx <= 63`, else 0 (R143). -/
def rowMask (b : Byte) (vx : Nat) : BitVec 64 :=
  if vx ≤ 63 then (((b.setWidth 72) <<< 64) >>> (vx + 8)).setWidth 64 else 0

/-- One sprite row through the row buffer (R143). -/
def bufferRow (m : Memory) (base : Word) (vx vy : Nat) (d : Draw) (row : Nat) : Draw :=
  if h : vy + row < 32 then
    (d.1.set (vy + row) (d.1[vy + row] ^^^ rowMask (m.read (ea base row)) vx) h,
      d.2 || (d.1[vy + row] &&& rowMask (m.read (ea base row)) vx) != 0)
  else d

/-- The sprite through the row buffer (R143). -/
def bufferSprite (m : Memory) (base : Word) (vx vy n : Nat) (scr : Screen) : Draw :=
  (List.range n).foldl (bufferRow m base vx vy) (scr, false)

/-- `00E0` (R141): every pixel unlit; VF is not touched. -/
def exec00E0 (s : State) : Result := .next (s.setScreen Screen.clear)

/-- `DXYN` (R142): the coordinates and `I` are read first (R83), VF is the collision. -/
def execDXYN (x y : RegIdx) (n : BitVec 4) (s : State) : Result :=
  let d := drawSprite s.memory s.I (s.readV x).toNat (s.readV y).toNat n.toNat s.screen
  .next ((s.setScreen d.1).writeFlag d.2)

end Sys2Proof.Machine
end

