-- ==== Sys2Proof/Machine/Index.lean ====
section
/-! DEFINITION. Index register and memory instructions (43_index_memory.md). -/

namespace Sys2Proof.Machine

/-- `ANNN` (R130): `I <- NNN`. -/
def execANNN (nnn : Addr) (s : State) : Result := .next (s.setI (zext16 nnn))

/-- `FX1E` (R131): `I <- (I + V[X]) mod 0x1000`, then VF = overflow past 0xFFF. -/
def execFX1E (x : RegIdx) (s : State) : Result :=
  .next ((s.setI (indexPlus s.I (s.readV x).toNat)).writeFlag (indexOverflow s.I (s.readV x)))

/-- `FX29` (R132): `I <- V[X] * 5`. -/
def execFX29 (x : RegIdx) (s : State) : Result := .next (s.setI (glyphAddress (s.readV x)))

/-- `FX33` (R133): hundreds, tens and ones of `V[X]` at `EA(0)`, `EA(1)`, `EA(2)`; `I` is not changed. -/
def execFX33 (x : RegIdx) (s : State) : Result :=
  .next (((s.writeByte (ea s.I 0) (hundreds (s.readV x))).writeByte (ea s.I 1) (tens (s.readV x))).writeByte
    (ea s.I 2) (ones (s.readV x)))

/-- `FX55` (R134): `V[0]` to `V[X]` to memory at `I`, then `I <- (I + X + 1) mod 0x1000`. -/
def execFX55 (x : RegIdx) (s : State) : Result :=
  .next ((s.setMemory (storeRegs s.V s.I (x.val + 1) s.memory)).setI (indexPlus s.I (x.val + 1)))

/-- `FX65` (R135): `V[0]` to `V[X]` from memory at `I`, then `I <- (I + X + 1) mod 0x1000`. -/
def execFX65 (x : RegIdx) (s : State) : Result :=
  .next ((s.setRegs (loadRegs s.memory s.I (x.val + 1) s.V)).setI (indexPlus s.I (x.val + 1)))

end Sys2Proof.Machine
end

