-- ==== Sys2Proof/Machine/KeypadTimers.lean ====
section
/-! DEFINITION. Keypad and timer instructions (45_keypad_timers.md). -/

namespace Sys2Proof.Machine

/-- `EX9E` (R151): skip if the key `V[X] & 0xF` is down. -/
def execEX9E (x : RegIdx) (s : State) : Result := .next (s.skipIf (keyDown s.keypad (keyIndex (s.readV x))))

/-- `EXA1` (R152): skip if the key `V[X] & 0xF` is up. -/
def execEXA1 (x : RegIdx) (s : State) : Result := .next (s.skipIf (!keyDown s.keypad (keyIndex (s.readV x))))

/-- `FX07` (R154): `V[X] <- delay`. -/
def execFX07 (x : RegIdx) (s : State) : Result := .next (s.writeV x s.delay)

/-- `FX0A` (R153): while no key is down, `pc` is this instruction's address again; else `V[X]` is the lowest key down. -/
def execFX0A (x : RegIdx) (s : State) : Result :=
  if s.keypad = 0 then .next (s.setPc (prevPc s.pc))
  else .next (s.writeV x (BitVec.ofNat 8 (lowestKey s.keypad)))

/-- `FX15` (R155): `delay <- V[X]`; `dt_fresh` follows at the end of the step (R80). -/
def execFX15 (x : RegIdx) (s : State) : Result := .next (s.setDelay (s.readV x))

/-- `FX18` (R156): `sound <- V[X]`. -/
def execFX18 (x : RegIdx) (s : State) : Result := .next (s.setSound (s.readV x))

end Sys2Proof.Machine
end

