-- ==== Sys2Proof/Machine/Cycle.lean ====
section
/-! DEFINITION. The atomic events: the step cycle (40_step_cycle.md R80), the tick (60_exceptions.md R175), the keypad
(R180), reset with an image (70_reset_and_hazards.md R190), the audio level output (10_state.md R30); and the placing of an
instruction where the next step fetches. -/

namespace Sys2Proof.Machine

/-- The address a step fetches from, `pc[11:0]` (R80). -/
def State.fetchAddr (s : State) : Addr := s.pc.setWidth 12

/-- The word a step fetches (R80, R42). -/
def State.fetchWord (s : State) : Word := s.memory.fetchWord s.fetchAddr

/-- The end of a step (R80): `dt_fresh <- (delay > d0)`, which a step that raised a fault does not reach (R165). -/
def State.endStep (d0 : Byte) (t : State) : State :=
  if t.halted then t else t.setDtFresh (decide (d0.toNat < t.delay.toNat))

/-- The end of a step on what the instruction answers. -/
def endStep (d0 : Byte) : Result → Result
  | .next t => .next (t.endStep d0)
  | .fault f => .fault f
  | .refused r => .refused r

/-- The `Step` event (R80); without effect while halted (R166). -/
def stepEvent (s : State) : Result :=
  if s.halted then .next s
  else
    match decodeWord s.fetchWord with
    | .ok i => endStep s.delay (exec i s.advance)
    | .error _ => .next (raiseAt .illegalOpcode s.fetchAddr s.fetchWord s.advance)

/-- A timer counted down to a floor of 0 (R19, R20, R175). -/
def countDown (b : Byte) : Byte := BitVec.ofNat 8 (b.toNat - 1)

/-- The level output to the audio collaborator (R30, R177). -/
def State.soundActive (s : State) : Bool := decide (0 < s.sound.toNat)

/-- The `Tick` event (R175); without effect while halted (R166). -/
def tickEvent (s : State) : State :=
  if s.halted then s
  else
    ((((s.setBeepReq s.soundActive).setDelay (if s.dtFresh then s.delay else countDown s.delay)).setSound
      (countDown s.sound)).setDtFresh false)

/-- The `SetKeys(k)` event (R180, R181); also while halted (R166). -/
def setKeysEvent (k : BitVec 16) (s : State) : State := s.setKeypad k

/-- The `Reset(PROGRAM)` event (R190): nothing of the run survives; `keypad` is the host's, and the model's own fields go on
(log entry 8). An image longer than 3584 bytes is refused (R48, R190). -/
def resetEvent (image : List Byte) (s : State) : Result :=
  if image.length ≤ Config.maxImage then
    .next ((((State.reset.setMemory (Memory.withImage image)).setKeypad s.keypad).setRndIndex s.rndIndex).setSchedule
      s.schedule)
  else .refused .imageTooLong

/-- The state with bytes where the next step fetches, and that step next: the event `step` is put first, and the halt latch
with its code is cleared, since a halted core fetches nothing (R80). Nothing else changes. -/
def State.placeInstr (s : State) (bytes : List Byte) : State :=
  ((s.setMemory (s.memory.writeBytes s.fetchAddr bytes)).setLatches false 0 s.faultPc s.faultWord).setSchedule
    (.step :: s.schedule)

end Sys2Proof.Machine
end

