-- ==== Sys2Proof/Machine/Step.lean ====
section
/-! DEFINITION. One step of the model: the first pending event, or the `Step` event where none is pending (60_exceptions.md
R181; log entry 2). -/

namespace Sys2Proof.Machine

/-- One atomic event (R181). -/
def step (s : State) : Host.Outcome State Fault Refusal :=
  match s.schedule with
  | [] => stepEvent s
  | .step :: es => stepEvent (s.setSchedule es)
  | .tick :: es => .next (tickEvent (s.setSchedule es))
  | .setKeys k :: es => .next (setKeysEvent k (s.setSchedule es))
  | .reset image :: es => resetEvent image (s.setSchedule es)

/-- The state in which the table word `w` stands where `step` fetches its next instruction, so that the very next step runs
it (log entry 5). -/
def State.withFetchWord (s : State) (nbits w : Nat) : State := s.placeInstr (tableBytes nbits w)

end Sys2Proof.Machine
end

