-- ==== Sys2Proof/Safety.lean ====
section
/-! DEFINITION. What counts as a safe run (60_exceptions.md R166, R183), the invariants of the machine (10_state.md R29), and
the frame: what an instruction leaves unchanged, in the terms the statements use. -/

namespace Sys2Proof.Machine

/-! ### Safe runs -/

/-- The fatal condition a fault code names (R160). -/
def Fault.ofCode (c : BitVec 3) : Option Fault :=
  if c = 1 then some .unsupportedMachineCall
  else if c = 2 then some .stackUnderflow
  else if c = 3 then some .illegalOpcode
  else if c = 4 then some .stackOverflow
  else none

/-- A state is safe while no fatal condition has stopped the core: R166 has a model treat a halted state as a fault. -/
def State.safe (s : State) : Bool := !s.halted

/-- The verdict on a state (R166): a halted state counts as the fault its code names, never as an end of the program. -/
def State.verdict (s : State) : Option Fault := if s.halted then Fault.ofCode s.faultCode else none

/-- R183: the program has finished when `pc` holds the address of a `1NNN` to that same address and no fault is recorded. -/
def State.finished (s : State) : Bool :=
  !s.halted && decide (decodeWord s.fetchWord = .ok (.op1NNN s.fetchAddr))

/-! ### Invariants -/

/-- R29, with memory in its canonical form: `pc`, `I` and the live stack entries are addresses, the fault code is set
exactly while halted and is one of R160's. (`sp` is 0 to 16 by its type.) -/
structure State.Inv (s : State) : Prop where
  pc_range : s.pc.toNat ≤ 0xFFF
  index_range : s.I.toNat ≤ 0xFFF
  stack_range : ∀ k : Fin 16, k.val < s.sp.val → (s.stack[k]).toNat ≤ 0xFFF
  code_iff_halted : s.faultCode ≠ 0 ↔ s.halted = true
  code_range : s.faultCode.toNat ≤ 4
  memory_wf : s.memory.wf

/-- What the latches of a halted state say of the fault (R160 to R165): the word is one that raises the recorded condition,
the stack is as the condition requires, and `pc` is the address after the word's. -/
def State.LatchesExplain (s : State) : Prop :=
  s.halted = true →
    s.pc.toNat = (s.faultPc.toNat + 2) % 0x1000 ∧
    ((s.faultCode = 1 ∧ ∃ nnn, decodeWord s.faultWord = .ok (.op0NNN nnn)) ∨
     (s.faultCode = 2 ∧ decodeWord s.faultWord = .ok .op00EE ∧ s.sp.val = 0) ∨
     (s.faultCode = 3 ∧ decodeWord s.faultWord = .error (.illegalOpcode s.faultWord)) ∨
     (s.faultCode = 4 ∧ (∃ nnn, decodeWord s.faultWord = .ok (.op2NNN nnn)) ∧ s.sp.val = 16))

/-! ### Frames -/

/-- What an instruction may change; everything not named stays (R28). `pc` may always change. -/
structure Touched where
  regs : List RegIdx := []
  index : Bool := false
  stack : Bool := false
  delay : Bool := false
  sound : Bool := false
  screen : Bool := false
  latches : Bool := false
  rndIndex : Bool := false
  bytes : List Addr := []

/-- Everything that `c` does not name is in `t` what it was in `s`: general registers, `I`, the stack and its depth, the
timers, the screen, the fault latches, every byte of memory, and always the keypad, `dt_fresh`, `beep_req` and the pending
events. -/
structure Unchanged (c : Touched) (s t : State) : Prop where
  regs : ∀ r : RegIdx, r ∉ c.regs → t.V[r] = s.V[r]
  index : c.index = false → t.I = s.I
  stack : c.stack = false → t.stack = s.stack ∧ t.sp = s.sp
  delay : c.delay = false → t.delay = s.delay
  sound : c.sound = false → t.sound = s.sound
  screen : c.screen = false → t.screen = s.screen
  latches : c.latches = false →
    t.halted = s.halted ∧ t.faultCode = s.faultCode ∧ t.faultPc = s.faultPc ∧ t.faultWord = s.faultWord
  rndIndex : c.rndIndex = false → t.rndIndex = s.rndIndex
  bytes : ∀ a : Addr, a ∉ c.bytes → t.readByte a = s.readByte a
  keypad : t.keypad = s.keypad
  dtFresh : t.dtFresh = s.dtFresh
  beepReq : t.beepReq = s.beepReq
  schedule : t.schedule = s.schedule

end Sys2Proof.Machine
end

