-- ==== Sys2Proof/Certificates/Slice0/Obligations.lean ====
section
/-! DEFINITION. The statements for the provers. Each docstring names the rules it formalises. `exec i s` is the `execute` part
of a step: in `s` the program counter is already advanced (40_step_cycle.md R82). -/

open Sys2Proof Sys2Proof.Machine

namespace Sys2Proof.Stmt

/-- `t` is `s` after `raise F(a, w)` (R165): the latches hold the code, the address of the instruction, which is `pc - 2`, and
the word; everything else, `pc` too, stays. -/
def Halts (f : Fault) (w : Nat) (s t : State) : Prop :=
  t.halted = true ∧ t.faultCode = f.code ∧ t.faultPc.toNat = (s.pc.toNat + 0xFFE) % 0x1000 ∧ t.faultWord.toNat = w ∧
    t.pc = s.pc ∧ Unchanged { latches := true } s t

/-- The sprite bit that `DXYN` with coordinates `(vx, vy)` and `n` rows puts on the pixel in column `c` and row `r` (R142). -/
def spriteBit (s : State) (vx vy n c r : Nat) : Bool :=
  decide (vx ≤ c ∧ c < vx + 8 ∧ vy ≤ r ∧ r < vy + n) && (s.readByte (ea s.I (r - vy))).getMsbD (c - vx)

/-- The condition under which a step in `s` raises `f` (R160). -/
def Fatal (s : State) : Fault → Prop
  | .unsupportedMachineCall => ∃ nnn, decodeWord s.fetchWord = .ok (.op0NNN nnn)
  | .stackUnderflow => decodeWord s.fetchWord = .ok .op00EE ∧ s.sp.val = 0
  | .illegalOpcode => decodeWord s.fetchWord = .error (.illegalOpcode s.fetchWord)
  | .stackOverflow => (∃ nnn, decodeWord s.fetchWord = .ok (.op2NNN nnn)) ∧ s.sp.val = 16

/-- The general registers an instruction may write: its destination, the flag, or the registers it loads (R11, R28). -/
def MayWriteReg (r : RegIdx) : Instr → Prop
  | .op6XNN x _ | .op7XNN x _ | .op8XY0 x _ | .op8XY1 x _ | .op8XY2 x _ | .op8XY3 x _ | .opCXNN x _ | .opFX07 x
  | .opFX0A x => r = x
  | .op8XY4 x _ | .op8XY5 x _ | .op8XY6 x _ | .op8XY7 x _ | .op8XYE x _ => r = x ∨ r = vF
  | .opFX1E _ | .opDXYN _ _ _ => r = vF
  | .opFX65 x => r ≤ x
  | .op00E0 | .op00EE | .op0NNN _ | .op1NNN _ | .op2NNN _ | .op3XNN _ _ | .op4XNN _ _ | .op5XY0 _ _ _ | .op9XY0 _ _ _
  | .opANNN _ | .opBNNN _ | .opEX9E _ | .opEXA1 _ | .opFX15 _ | .opFX18 _ | .opFX29 _ | .opFX33 _ | .opFX55 _ => False

/-- The instructions that write VF as a flag (R11). -/
def WritesFlag : Instr → Prop
  | .op8XY4 _ _ | .op8XY5 _ _ | .op8XY6 _ _ | .op8XY7 _ _ | .op8XYE _ _ | .opFX1E _ | .opDXYN _ _ _ => True
  | .op00E0 | .op00EE | .op0NNN _ | .op1NNN _ | .op2NNN _ | .op3XNN _ _ | .op4XNN _ _ | .op5XY0 _ _ _ | .op6XNN _ _
  | .op7XNN _ _ | .op8XY0 _ _ | .op8XY1 _ _ | .op8XY2 _ _ | .op8XY3 _ _ | .op9XY0 _ _ _ | .opANNN _ | .opBNNN _
  | .opCXNN _ _ | .opEX9E _ | .opEXA1 _ | .opFX07 _ | .opFX0A _ | .opFX15 _ | .opFX18 _ | .opFX29 _ | .opFX33 _
  | .opFX55 _ | .opFX65 _ => False

/-- Two states agree on all that an instruction can read: not on `sound`, `dt_fresh`, `beep_req`, the fault latches and the
pending events. -/
structure SameView (s t : State) : Prop where
  V : t.V = s.V
  I : t.I = s.I
  pc : t.pc = s.pc
  stack : t.stack = s.stack
  sp : t.sp = s.sp
  delay : t.delay = s.delay
  keypad : t.keypad = s.keypad
  screen : t.screen = s.screen
  memory : t.memory = s.memory
  rndIndex : t.rndIndex = s.rndIndex

/-- `es` is what is pending after the `Step` event that comes next in `s` (log entry 2: none pending stands for `Step`). -/
def StepIsNext (s : State) (es : List Event) : Prop := s.schedule = .step :: es ∨ s.schedule = [] ∧ es = []

end Sys2Proof.Stmt

open Sys2Proof.Stmt

/-! ### Reset -/

/-- R190: what a reset event leaves, and that an image longer than 3584 bytes is refused. Every value but `pc`, the font and
the image, and the refusal, are the spec's own decisions (92_eei_decisions.md D15 to D18, D22; log entries 8, 10). -/
def Obligations.ResetEventLeavesTheSpecsValues : Prop :=
  ∀ (s : State) (image : List Byte) (es : List Event), s.schedule = .reset image :: es →
    (3584 < image.length → step s = .refused .imageTooLong) ∧
    (image.length ≤ 3584 → ∃ t, step s = .next t ∧
      (∀ a : Addr, t.readByte a =
        if a.toNat < 80 then fontTable.getD a.toNat 0
        else if 0x200 ≤ a.toNat ∧ a.toNat < 0x200 + image.length then image.getD (a.toNat - 0x200) 0
        else 0) ∧
      t.pc = 0x0200 ∧ (∀ r : RegIdx, t.V[r] = 0) ∧ t.I = 0 ∧ t.sp = 0 ∧ t.delay = 0 ∧ t.sound = 0 ∧
      (∀ x < 64, ∀ y < 32, t.screen.pixel x y = false) ∧ t.dtFresh = false ∧ t.beepReq = false ∧ t.halted = false ∧
      t.faultCode = 0 ∧ t.keypad = s.keypad)

/-- R27 for an empty image: the state the model starts from. The keypad, the stack's entries, `fault_pc` and `fault_word`,
to which the spec gives no value, are the model's choice (log entries 3, 4) and are not stated. Every value but `pc` and the
font is the spec's own decision (D15 to D18; log entries 9, 10). -/
def Obligations.ResetStateHasTheSpecsValues : Prop :=
  State.reset.pc = 0x0200 ∧ (∀ r : RegIdx, State.reset.V[r] = 0) ∧ State.reset.I = 0 ∧ State.reset.sp = 0 ∧
  State.reset.delay = 0 ∧ State.reset.sound = 0 ∧ (∀ x y, State.reset.screen.pixel x y = false) ∧
  (∀ a : Addr, State.reset.readByte a = if a.toNat < 80 then fontTable.getD a.toNat 0 else 0) ∧
  State.reset.dtFresh = false ∧ State.reset.halted = false ∧ State.reset.faultCode = 0 ∧ State.reset.beepReq = false

/-! ### Registers -/

/-- R111, R113: the loads of an immediate and of a register, which write their destination and nothing else (that a copy
leaves VF alone is the spec's own decision D25; log entry 12). -/
def Obligations.LoadsWriteTheirRegisterOnly : Prop :=
  ∀ (s : State) (x y : RegIdx) (nn : Byte),
    (∃ t, exec (.op6XNN x nn) s = .next t ∧ t.V[x] = nn ∧ t.pc = s.pc ∧ Unchanged { regs := [x] } s t) ∧
    (∃ t, exec (.op8XY0 x y) s = .next t ∧ t.V[x] = s.V[y] ∧ t.pc = s.pc ∧ Unchanged { regs := [x] } s t)

/-- R112: the sum modulo 256, and no flag (the spec's own decision D25; log entry 12). -/
def Obligations.AddImmediateWrapsAndWritesNoFlag : Prop :=
  ∀ (s : State) (x : RegIdx) (nn : Byte),
    ∃ t, exec (.op7XNN x nn) s = .next t ∧ (t.V[x]).toNat = ((s.V[x]).toNat + nn.toNat) % 256 ∧ t.pc = s.pc ∧
      Unchanged { regs := [x] } s t

/-- R114, R115, R116: bit by bit, and no flag (the spec's own decision D25; log entry 12). -/
def Obligations.LogicIsBitwiseAndWritesNoFlag : Prop :=
  ∀ (s : State) (x y : RegIdx),
    (∃ t, exec (.op8XY1 x y) s = .next t ∧
      (∀ k < 8, (t.V[x]).getLsbD k = ((s.V[x]).getLsbD k || (s.V[y]).getLsbD k)) ∧ t.pc = s.pc ∧
      Unchanged { regs := [x] } s t) ∧
    (∃ t, exec (.op8XY2 x y) s = .next t ∧
      (∀ k < 8, (t.V[x]).getLsbD k = ((s.V[x]).getLsbD k && (s.V[y]).getLsbD k)) ∧ t.pc = s.pc ∧
      Unchanged { regs := [x] } s t) ∧
    (∃ t, exec (.op8XY3 x y) s = .next t ∧
      (∀ k < 8, (t.V[x]).getLsbD k = ((s.V[x]).getLsbD k ^^ (s.V[y]).getLsbD k)) ∧ t.pc = s.pc ∧
      Unchanged { regs := [x] } s t)

/-- R117: VF is the carry also when it is the destination; otherwise the destination is the sum (the flag written last and
the old VF as addend are the spec's own decisions D7, D6; log entry 12). -/
def Obligations.AddWritesCarryLast : Prop :=
  ∀ (s : State) (x y : RegIdx),
    ∃ t, exec (.op8XY4 x y) s = .next t ∧
      (t.V[vF]).toNat = (if (s.V[x]).toNat + (s.V[y]).toNat > 255 then 1 else 0) ∧
      (x ≠ vF → (t.V[x]).toNat = ((s.V[x]).toNat + (s.V[y]).toNat) % 256) ∧ t.pc = s.pc ∧
      Unchanged { regs := [x, vF] } s t

/-- R118, R120: VF is not-borrow also when it is the destination; otherwise the destination is the wrapped
difference (the spec's own decisions D5, D6, D7; log entry 12). -/
def Obligations.SubtractsWriteNotBorrowLast : Prop :=
  ∀ (s : State) (x y : RegIdx),
    (∃ t, exec (.op8XY5 x y) s = .next t ∧
      (t.V[vF]).toNat = (if (s.V[x]).toNat ≥ (s.V[y]).toNat then 1 else 0) ∧
      (x ≠ vF → ((t.V[x]).toNat : Int) = (((s.V[x]).toNat : Int) - (s.V[y]).toNat) % 256) ∧ t.pc = s.pc ∧
      Unchanged { regs := [x, vF] } s t) ∧
    (∃ t, exec (.op8XY7 x y) s = .next t ∧
      (t.V[vF]).toNat = (if (s.V[y]).toNat ≥ (s.V[x]).toNat then 1 else 0) ∧
      (x ≠ vF → ((t.V[x]).toNat : Int) = (((s.V[y]).toNat : Int) - (s.V[x]).toNat) % 256) ∧ t.pc = s.pc ∧
      Unchanged { regs := [x, vF] } s t)

/-- R119, R121: the source is `V[Y]`, and VF is the bit shifted out of its old value also when VF is the destination (the
flag written last and the old VF as source are the spec's own decisions D7, D6; log entry 12). -/
def Obligations.ShiftsTakeTheirSourceFromVY : Prop :=
  ∀ (s : State) (x y : RegIdx),
    (∃ t, exec (.op8XY6 x y) s = .next t ∧ (t.V[vF]).toNat = (s.V[y]).toNat % 2 ∧
      (x ≠ vF → (t.V[x]).toNat = (s.V[y]).toNat / 2) ∧ t.pc = s.pc ∧ Unchanged { regs := [x, vF] } s t) ∧
    (∃ t, exec (.op8XYE x y) s = .next t ∧ (t.V[vF]).toNat = (s.V[y]).toNat / 128 ∧
      (x ≠ vF → (t.V[x]).toNat = 2 * (s.V[y]).toNat % 256) ∧ t.pc = s.pc ∧ Unchanged { regs := [x, vF] } s t)

/-- R122: the sampled byte masked with NN, whatever byte it is; the sample is used up (the model's counter, log entry 1;
the spec's decision D14 leaves the byte open). -/
def Obligations.RandomByteIsMaskedAndUsedOnce : Prop :=
  ∀ (s : State) (x : RegIdx) (nn : Byte),
    ∃ t, exec (.opCXNN x nn) s = .next t ∧ t.V[x] = Config.rnd s.rndIndex &&& nn ∧ t.rndIndex = s.rndIndex + 1 ∧
      t.pc = s.pc ∧ Unchanged { regs := [x], rndIndex := true } s t

/-! ### Control transfer -/

/-- R92, R98: the jump and the jump indexed by `V[0]`, which changes neither `I` nor a flag. -/
def Obligations.JumpsSetThePc : Prop :=
  ∀ (s : State) (nnn : Addr),
    (∃ t, exec (.op1NNN nnn) s = .next t ∧ t.pc.toNat = nnn.toNat ∧ Unchanged {} s t) ∧
    (∃ t, exec (.opBNNN nnn) s = .next t ∧ t.pc.toNat = (nnn.toNat + (s.V[(0 : RegIdx)]).toNat) % 0x1000 ∧
      Unchanged {} s t)

/-- R93, R17: with room on the stack the advanced `pc` is pushed above the entries in use and control goes to NNN (the
sixteen places are the spec's own decision D2; log entry 18). -/
def Obligations.CallPushesTheAdvancedPc : Prop :=
  ∀ (s : State) (nnn : Addr), s.sp.val < 16 →
    ∃ t, exec (.op2NNN nnn) s = .next t ∧ t.pc.toNat = nnn.toNat ∧ t.sp.val = s.sp.val + 1 ∧
      (∀ k : Fin 16, t.stack[k] = if k.val = s.sp.val then s.pc else s.stack[k]) ∧ Unchanged { stack := true } s t

/-- R164, R17: on a full stack a call raises StackOverflow, pushes nothing and does not jump (the spec's own
decisions D2, D17; the halt is a next state by log entry 6). -/
def Obligations.CallOnAFullStackHalts : Prop :=
  ∀ (s : State) (nnn : Addr), s.sp.val = 16 →
    ∃ t, exec (.op2NNN nnn) s = .next t ∧ Halts .stackOverflow (0x2000 + nnn.toNat) s t

/-- R90, R18: with an entry on the stack the topmost one becomes `pc` (sixteen places: the spec's own decision D2). -/
def Obligations.ReturnPopsTheTopEntry : Prop :=
  ∀ (s : State) (k : Fin 16), s.sp.val = k.val + 1 →
    ∃ t, exec .op00EE s = .next t ∧ t.pc = s.stack[k] ∧ t.sp.val = k.val ∧ t.stack = s.stack ∧
      Unchanged { stack := true } s t

/-- R162, R18: on an empty stack a return raises StackUnderflow (latches: the spec's own decision D17; the halt is a next
state by log entry 6). -/
def Obligations.ReturnOnAnEmptyStackHalts : Prop :=
  ∀ s : State, s.sp.val = 0 → ∃ t, exec .op00EE s = .next t ∧ Halts .stackUnderflow 0x00EE s t

/-- R91, R161: every machine-code call raises UnsupportedMachineCall (latches: the spec's own decision D17; the halt is a
next state by log entry 6). -/
def Obligations.MachineCallHalts : Prop :=
  ∀ (s : State) (nnn : Addr), ∃ t, exec (.op0NNN nnn) s = .next t ∧ Halts .unsupportedMachineCall nnn.toNat s t

/-- R90, R93: a return after a call, with the stack as the call left it, resumes after the call and frees the
entry: a consequence of both rules, D2 included. -/
def Obligations.ReturnUndoesCall : Prop :=
  ∀ (s t u : State) (nnn : Addr), s.sp.val < 16 → exec (.op2NNN nnn) s = .next t → u.stack = t.stack → u.sp = t.sp →
    ∃ v, exec .op00EE u = .next v ∧ v.pc = s.pc ∧ v.sp = s.sp ∧
      ∀ k : Fin 16, k.val < s.sp.val → v.stack[k] = s.stack[k]

/-- R94, R95, R96, R97: a skip moves `pc` by 2 more, modulo 0x1000, exactly when its condition holds, whatever the ignored
nibble `u` is (R69; that the nibble is ignored is the spec's own decision D8, log entry 11). -/
def Obligations.SkipsAdvanceByTwoExactlyOnTheirCondition : Prop :=
  ∀ (s : State) (x y : RegIdx) (nn : Byte) (u : BitVec 4),
    (∃ t, exec (.op3XNN x nn) s = .next t ∧ Unchanged {} s t ∧
      (s.V[x] = nn → t.pc.toNat = (s.pc.toNat + 2) % 0x1000) ∧ (s.V[x] ≠ nn → t.pc = s.pc)) ∧
    (∃ t, exec (.op4XNN x nn) s = .next t ∧ Unchanged {} s t ∧
      (s.V[x] ≠ nn → t.pc.toNat = (s.pc.toNat + 2) % 0x1000) ∧ (s.V[x] = nn → t.pc = s.pc)) ∧
    (∃ t, exec (.op5XY0 x y u) s = .next t ∧ Unchanged {} s t ∧
      (s.V[x] = s.V[y] → t.pc.toNat = (s.pc.toNat + 2) % 0x1000) ∧ (s.V[x] ≠ s.V[y] → t.pc = s.pc)) ∧
    (∃ t, exec (.op9XY0 x y u) s = .next t ∧ Unchanged {} s t ∧
      (s.V[x] ≠ s.V[y] → t.pc.toNat = (s.pc.toNat + 2) % 0x1000) ∧ (s.V[x] = s.V[y] → t.pc = s.pc))

/-- R151, R152, R150: the key tested is the one the low four bits of `V[X]` name (the spec's own decision D12; log entry
12). -/
def Obligations.KeySkipsTestTheLowFourBits : Prop :=
  ∀ (s : State) (x : RegIdx),
    (∃ t, exec (.opEX9E x) s = .next t ∧ Unchanged {} s t ∧
      (s.keypad.getLsbD ((s.V[x]).toNat % 16) = true → t.pc.toNat = (s.pc.toNat + 2) % 0x1000) ∧
      (s.keypad.getLsbD ((s.V[x]).toNat % 16) = false → t.pc = s.pc)) ∧
    (∃ t, exec (.opEXA1 x) s = .next t ∧ Unchanged {} s t ∧
      (s.keypad.getLsbD ((s.V[x]).toNat % 16) = false → t.pc.toNat = (s.pc.toNat + 2) % 0x1000) ∧
      (s.keypad.getLsbD ((s.V[x]).toNat % 16) = true → t.pc = s.pc))

/-! ### Index register and memory -/

/-- R130, R132: `I` is the immediate, or five times the whole byte. -/
def Obligations.IndexLoads : Prop :=
  ∀ (s : State) (x : RegIdx) (nnn : Addr),
    (∃ t, exec (.opANNN nnn) s = .next t ∧ t.I.toNat = nnn.toNat ∧ t.pc = s.pc ∧ Unchanged { index := true } s t) ∧
    (∃ t, exec (.opFX29 x) s = .next t ∧ t.I.toNat = (s.V[x]).toNat * 5 ∧ t.pc = s.pc ∧
      Unchanged { index := true } s t)

/-- R131: the sum modulo 0x1000 and VF its overflow, also when VF is the addend (its old value: the spec's own decision D6;
log entry 12). -/
def Obligations.IndexAddWritesOverflow : Prop :=
  ∀ (s : State) (x : RegIdx),
    ∃ t, exec (.opFX1E x) s = .next t ∧ t.I.toNat = (s.I.toNat + (s.V[x]).toNat) % 0x1000 ∧
      (t.V[vF]).toNat = (if s.I.toNat + (s.V[x]).toNat > 0xFFF then 1 else 0) ∧ t.pc = s.pc ∧
      Unchanged { regs := [vF], index := true } s t

/-- R133: three digits, hundreds first, at `EA(0)`, `EA(1)`, `EA(2)`; nothing else is stored and `I` stays
(the digit order is the spec's own decision D19; log entry 12). -/
def Obligations.DecimalDigitsAreStored : Prop :=
  ∀ (s : State) (x : RegIdx),
    ∃ t, exec (.opFX33 x) s = .next t ∧
      (t.readByte (ea s.I 0)).toNat = (s.V[x]).toNat / 100 ∧
      (t.readByte (ea s.I 1)).toNat = (s.V[x]).toNat / 10 % 10 ∧
      (t.readByte (ea s.I 2)).toNat = (s.V[x]).toNat % 10 ∧ t.pc = s.pc ∧
      Unchanged { bytes := [ea s.I 0, ea s.I 1, ea s.I 2] } s t

/-- R134: registers 0 to X at `EA(0)` to `EA(X)`, nothing else stored, and `I` moved past them. -/
def Obligations.RegistersAreStored : Prop :=
  ∀ (s : State) (x : RegIdx),
    ∃ t, exec (.opFX55 x) s = .next t ∧ (∀ k : RegIdx, k ≤ x → t.readByte (ea s.I k.val) = s.V[k]) ∧
      t.I.toNat = (s.I.toNat + x.val + 1) % 0x1000 ∧ t.pc = s.pc ∧
      Unchanged { index := true, bytes := (List.range (x.val + 1)).map (ea s.I) } s t

/-- R135: registers 0 to X from `EA(0)` to `EA(X)`, no other register written, and `I` moved past them (that read addresses
wrap is the spec's own decision D28; log entry 13). -/
def Obligations.RegistersAreLoaded : Prop :=
  ∀ (s : State) (x : RegIdx),
    ∃ t, exec (.opFX65 x) s = .next t ∧ (∀ k : RegIdx, k ≤ x → t.V[k] = s.readByte (ea s.I k.val)) ∧
      t.I.toNat = (s.I.toNat + x.val + 1) % 0x1000 ∧ t.pc = s.pc ∧
      Unchanged { regs := (List.finRange 16).filter (fun k => decide (k ≤ x)), index := true } s t

/-- R134, R135, R44: loading back what was stored, from the same `I`, gives every stored register its value, also where the
run wraps past 0xFFF (reads wrap by the spec's own decision D28; log entry 13). -/
def Obligations.LoadAfterStoreGivesTheRegistersBack : Prop :=
  ∀ (s t u : State) (x : RegIdx), exec (.opFX55 x) s = .next t → u.memory = t.memory → u.I = s.I →
    ∃ v, exec (.opFX65 x) u = .next v ∧ ∀ k : RegIdx, k ≤ x → v.V[k] = s.V[k]

/-- R41, R52: what `FX55` stores is what a fetch there reads next, the lower register as the high byte. -/
def Obligations.StoredBytesAreFetched : Prop :=
  ∀ (s t : State) (x k : RegIdx) (h : k.val + 1 ≤ x.val), exec (.opFX55 x) s = .next t →
    (t.memory.fetchWord (ea s.I k.val)).toNat =
      (s.V[k]).toNat * 256 + (s.V[(⟨k.val + 1, by omega⟩ : RegIdx)]).toNat

/-- R42: the word at an address is big-endian, its second byte from the next address modulo 0x1000 (the wrap is the spec's
own decision D4; log entry 13). -/
def Obligations.FetchIsBigEndianAndWraps : Prop :=
  ∀ (m : Memory) (a : Addr),
    (m.fetchWord a).toNat = (m.read a).toNat * 256 + (m.read (BitVec.ofNat 12 ((a.toNat + 1) % 0x1000))).toNat

/-! ### Display -/

/-- R141: every pixel unlit, nothing else changed. -/
def Obligations.ClearUnlightsEveryPixel : Prop :=
  ∀ s : State, ∃ t, exec .op00E0 s = .next t ∧ (∀ x < 64, ∀ y < 32, t.screen.pixel x y = false) ∧ t.pc = s.pc ∧
    Unchanged { screen := true } s t

/-- R142, R140: each pixel of the screen is XORed with the sprite bit that falls on it; VF is 1 exactly when some pixel went
from lit to unlit. The coordinates are those before VF is written. Clipping, the old VF as a coordinate and the wrap of the
sprite's addresses are the spec's own decisions D10, D6, D28 (log entries 12, 13). -/
def Obligations.DrawXorsTheSpriteAndReportsCollision : Prop :=
  ∀ (s : State) (x y : RegIdx) (n : BitVec 4),
    ∃ t, exec (.opDXYN x y n) s = .next t ∧
      (∀ c < 64, ∀ r < 32, t.screen.pixel c r =
        (s.screen.pixel c r ^^ spriteBit s (s.V[x]).toNat (s.V[y]).toNat n.toNat c r)) ∧
      ((t.V[vF] = 1 ∧ ∃ c < 64, ∃ r < 32, s.screen.pixel c r = true ∧ t.screen.pixel c r = false) ∨
       (t.V[vF] = 0 ∧ ∀ c < 64, ∀ r < 32, s.screen.pixel c r = true → t.screen.pixel c r = true)) ∧
      t.pc = s.pc ∧ Unchanged { regs := [vF], screen := true } s t

/-- R142: drawing the same sprite again at coordinates not held in VF restores the screen, and the second draw reports a
collision exactly when a 1 bit of the sprite falls on a pixel that was unlit before the first draw (log entry 19: the rule's
pseudocode, where its prose is wider; clipping is the spec's own decision D10, log entry 12). -/
def Obligations.DrawingTwiceRestoresTheScreen : Prop :=
  ∀ (s t : State) (x y : RegIdx) (n : BitVec 4), x ≠ vF → y ≠ vF → exec (.opDXYN x y n) s = .next t →
    ∃ u, exec (.opDXYN x y n) t = .next u ∧ u.screen = s.screen ∧
      (u.V[vF] = 1 ↔ ∃ c < 64, ∃ r < 32,
        spriteBit s (s.V[x]).toNat (s.V[y]).toNat n.toNat c r = true ∧ s.screen.pixel c r = false)

/-- R143: the row buffer computes exactly what the pixel loop of R142 computes, screen and collision (a claim the
spec marks as derived, with its decision D11). -/
def Obligations.RowBufferComputesTheDraw : Prop :=
  ∀ (m : Memory) (base : Word) (vx vy n : Nat) (scr : Screen),
    bufferSprite m base vx vy n scr = drawSprite m base vx vy n scr

/-- R22, R178: the flat array has pixel `(x, y)` at index `y * 64 + x`, and the stored row has column `x` at bit `63 - x`
(R143); the spec's own decision D11, log entry 17. -/
def Obligations.FlatScreenIsRowMajor : Prop :=
  ∀ (scr : Screen) (x : Nat) (y : Fin 32), x < 64 →
    scr.flat (y.val * 64 + x) = scr.pixel x y.val ∧ scr.pixel x y.val = (scr[y]).getLsbD (63 - x)

/-! ### Keypad and timers -/

/-- R153: with a key down the lowest one's index is stored and the instruction is passed; with none `pc` goes back
(the lowest of several is the spec's own decision D13; log entry 12). -/
def Obligations.WaitKeyStoresTheLowestKey : Prop :=
  ∀ (s : State) (x : RegIdx),
    (s.keypad ≠ 0 → ∃ t, exec (.opFX0A x) s = .next t ∧
      (∃ k < 16, s.keypad.getLsbD k = true ∧ (∀ j < k, s.keypad.getLsbD j = false) ∧ (t.V[x]).toNat = k) ∧
      t.pc = s.pc ∧ Unchanged { regs := [x] } s t) ∧
    (s.keypad = 0 → ∃ t, exec (.opFX0A x) s = .next t ∧ t.pc.toNat = (s.pc.toNat + 0xFFE) % 0x1000 ∧
      Unchanged {} s t)

/-- R153: a waiting step changes no state other than `dt_fresh`, which becomes 0. -/
def Obligations.WaitingStepChangesOnlyDtFresh : Prop :=
  ∀ (s : State) (x : RegIdx), s.halted = false → s.schedule = [] → s.pc.toNat ≤ 0xFFF → s.keypad = 0 →
    decodeWord s.fetchWord = .ok (.opFX0A x) → step s = .next { s with dtFresh := false }

/-- R154, R155, R156: the timer transfers (that `FX18` writes `sound` is the spec's own decision D20; log entry 12). -/
def Obligations.TimerTransfers : Prop :=
  ∀ (s : State) (x : RegIdx),
    (∃ t, exec (.opFX07 x) s = .next t ∧ t.V[x] = s.delay ∧ t.pc = s.pc ∧ Unchanged { regs := [x] } s t) ∧
    (∃ t, exec (.opFX15 x) s = .next t ∧ t.delay = s.V[x] ∧ t.pc = s.pc ∧ Unchanged { delay := true } s t) ∧
    (∃ t, exec (.opFX18 x) s = .next t ∧ t.sound = s.V[x] ∧ t.pc = s.pc ∧ Unchanged { sound := true } s t)

/-- R24, R80: after a step that raised no fault `dt_fresh` says whether `delay` grew, which only `FX15` can do (the spec's
own decision D15; log entry 14). -/
def Obligations.DtFreshMarksAStepThatRaisedDelay : Prop :=
  ∀ (s t : State) (es : List Event), s.halted = false → StepIsNext s es → step s = .next t → t.halted = false →
    (t.dtFresh = true ↔ s.delay.toNat < t.delay.toNat) ∧
    (t.dtFresh = true → ∃ x, decodeWord s.fetchWord = .ok (.opFX15 x))

/-- R155, R175: a `delay` raised by `FX15` survives a tick that directly follows, and the next tick counts it down (the
spec's own decision D15; log entry 14). -/
def Obligations.RaisedDelaySurvivesTheNextTick : Prop :=
  ∀ (s : State) (x : RegIdx) (es : List Event), s.halted = false → s.schedule = .step :: .tick :: .tick :: es →
    decodeWord s.fetchWord = .ok (.opFX15 x) → s.delay.toNat < (s.V[x]).toNat →
    ∃ t u v, step s = .next t ∧ step t = .next u ∧ step u = .next v ∧ t.dtFresh = true ∧ u.delay = s.V[x] ∧
      u.dtFresh = false ∧ v.delay.toNat + 1 = (s.V[x]).toNat

/-- R175, R166: what a tick does, and that it does nothing to a halted core (the protection by `dt_fresh`, `beep_req` before
the decrement and no tick while halted are the spec's own decisions D15, D16, D27; log entry 14). -/
def Obligations.TickCountsTheTimersDown : Prop :=
  ∀ (s : State) (es : List Event), s.schedule = .tick :: es →
    (s.halted = true → step s = .next { s with schedule := es }) ∧
    (s.halted = false → step s = .next { s with
      schedule := es
      beepReq := decide (0 < s.sound.toNat)
      delay := if s.dtFresh = false ∧ 0 < s.delay.toNat then s.delay - 1 else s.delay
      sound := if 0 < s.sound.toNat then s.sound - 1 else s.sound
      dtFresh := false })

/-- R175, R19, R20: over any run of ticks alone both timers lose one per tick down to 0 (`delay` where it is not fresh), and
the last tick requested a beep exactly when `sound` was above 0 before it. -/
def Obligations.TicksCountDownToTheFloor : Prop :=
  ∀ (n : Nat) (s : State) (es : List Event), s.halted = false → s.dtFresh = false →
    s.schedule = List.replicate (n + 1) .tick ++ es →
    ∃ t, Host.Core.run Sys2Proof.core (n + 1) s = .next t ∧ t.delay.toNat = s.delay.toNat - (n + 1) ∧
      t.sound.toNat = s.sound.toNat - (n + 1) ∧ t.beepReq = decide (n < s.sound.toNat) ∧ t.schedule = es ∧ t.pc = s.pc

/-- R180, R182, R166: driving the keypad changes the keypad and nothing else, halted or not, `dt_fresh` included (log
entry 20). -/
def Obligations.SetKeysChangesOnlyTheKeypad : Prop :=
  ∀ (s : State) (k : BitVec 16) (es : List Event), s.schedule = .setKeys k :: es →
    step s = .next { s with schedule := es, keypad := k }

/-! ### The step cycle and the fatal conditions -/

/-- R80, R82: a step that is not halted runs the decoded instruction on the state with the advanced `pc`, and then, where no
fault was raised, sets `dt_fresh` (the wrap is the spec's own decision D3; which event is next is the model's, log
entry 2). -/
def Obligations.StepRunsTheDecodedInstruction : Prop :=
  ∀ (s t : State) (es : List Event) (i : Instr), s.halted = false → StepIsNext s es →
    decodeWord (s.memory.fetchWord (BitVec.ofNat 12 s.pc.toNat)) = .ok i →
    exec i { s with pc := BitVec.ofNat 16 ((s.pc.toNat + 2) % 0x1000), schedule := es } = .next t →
    step s = .next (if t.halted = true then t else { t with dtFresh := decide (s.delay.toNat < t.delay.toNat) })

/-- R163, R71: a word without a handler raises IllegalOpcode; only `pc` and the latches change (the spec's own decision
D17; the halt is a next state by log entry 6). -/
def Obligations.IllegalWordHalts : Prop :=
  ∀ (s : State) (es : List Event) (e : DecodeError), s.halted = false → StepIsNext s es →
    decodeWord s.fetchWord = .error e →
    step s = .next { s with
      schedule := es
      pc := BitVec.ofNat 16 ((s.pc.toNat + 2) % 0x1000)
      halted := true
      faultCode := 3
      faultPc := BitVec.ofNat 12 s.pc.toNat
      faultWord := s.fetchWord }

/-- R160: a step raises a fault exactly under one of the four conditions, and the code is that condition's (the spec's own
decisions D2, D17; log entry 6). -/
def Obligations.StepHaltsExactlyOnTheFatalConditions : Prop :=
  ∀ (s t : State) (es : List Event), s.halted = false → StepIsNext s es → step s = .next t →
    (t.halted = true ↔ ∃ f, Fatal s f) ∧ ∀ f, Fatal s f → t.faultCode = f.code

/-- R165: whatever instruction faults, the latches hold the address and the word of the fetch, `pc` is the advanced one, and
nothing else has changed, `dt_fresh` included (the spec's own decision D17; log entries 6, 7). -/
def Obligations.FaultEntryIsPrecise : Prop :=
  ∀ (s t : State) (es : List Event), s.halted = false → StepIsNext s es → step s = .next t → t.halted = true →
    t.faultPc.toNat = s.pc.toNat % 0x1000 ∧ t.faultWord = s.fetchWord ∧
    t.pc.toNat = (t.faultPc.toNat + 2) % 0x1000 ∧ t.schedule = es ∧
    Unchanged { latches := true } { s with schedule := es } t

/-- R166: while halted, `Step` and `Tick` change nothing, and only reset leaves the halted state (the spec's own
decision D27; log entries 2, 14). -/
def Obligations.HaltedStateIsAbsorbing : Prop :=
  ∀ s : State, s.halted = true →
    (s.schedule = [] → step s = .next s) ∧
    (∀ es, s.schedule = .step :: es → step s = .next { s with schedule := es }) ∧
    (∀ es, s.schedule = .tick :: es → step s = .next { s with schedule := es }) ∧
    (∀ t, step s = .next t → t.halted = false → ∃ image es, s.schedule = .reset image :: es)

/-- No event is left without a next state but a reset with an image that is too long (R49, R160, R190): no instruction, in
any state, faults or is refused: a fatal condition is a next state (log entry 6). -/
def Obligations.EveryEventAnswersANextState : Prop :=
  ∀ s : State, (∀ image es, s.schedule = .reset image :: es → image.length ≤ 3584) → ∃ t, step s = .next t

/-- The model's choice of how a table word is placed (log entry 5): the next step after `withFetchWord` runs the instruction
that the decoder reads from the word, whatever the state was, and then the pending events stand as before. -/
def Obligations.PlacedWordIsRunNext : Prop :=
  ∀ (s t : State) (nbits w : Nat) (i : Instr), decodeTableWord nbits w = some i →
    exec i { s.withFetchWord nbits w with pc := BitVec.ofNat 16 ((s.pc.toNat + 2) % 0x1000), schedule := s.schedule }
      = .next t →
    step (s.withFetchWord nbits w) =
      .next (if t.halted = true then t else { t with dtFresh := decide (s.delay.toNat < t.delay.toNat) })

/-! ### Encoding -/

/-- R61: the fields are the bits of the word that the spec gives. -/
def Obligations.FieldsAreTheSpecsBits : Prop :=
  ∀ w : Word, (fieldOP w).toNat = w.toNat / 0x1000 ∧ (fieldX w).val = w.toNat / 0x100 % 0x10 ∧
    (fieldY w).val = w.toNat / 0x10 % 0x10 ∧ (fieldN w).toNat = w.toNat % 0x10 ∧ (fieldNN w).toNat = w.toNat % 0x100 ∧
    (fieldNNN w).toNat = w.toNat % 0x1000

/-- Words written out from the patterns of R70, one for each family, with their fields. -/
def Obligations.SampleWordsDecode : Prop :=
  decodeWord 0b0000000011100000#16 = .ok .op00E0 ∧
  decodeWord 0b0000000011101110#16 = .ok .op00EE ∧
  decodeWord 0b0000000111100000#16 = .ok (.op0NNN 0x1E0) ∧
  decodeWord 0b0010001100000100#16 = .ok (.op2NNN 0x304) ∧
  decodeWord 0b0101101010110011#16 = .ok (.op5XY0 0xA 0xB 0x3) ∧
  decodeWord 0b1000101010110111#16 = .ok (.op8XY7 0xA 0xB) ∧
  decodeWord 0b1000101010111001#16 = .error (.illegalOpcode 0x8AB9) ∧
  decodeWord 0b1101101010110111#16 = .ok (.opDXYN 0xA 0xB 0x7) ∧
  decodeWord 0b1110000110011110#16 = .ok (.opEX9E 0x1) ∧
  decodeWord 0b1111011001010101#16 = .ok (.opFX55 0x6)

/-- R61, R62, R70: decoding the word of a well-formed instruction gives the instruction back, every operand included. -/
def Obligations.DecodeGivesBackEveryWellFormedInstruction : Prop :=
  ∀ i : Instr, i.wellFormed = true → decodeWord (encode i) = .ok i

/-- R61, R70: a word that decodes is the word of the instruction it decodes to, which is well-formed. -/
def Obligations.DecodedInstructionHasTheWordItCameFrom : Prop :=
  ∀ (w : Word) (i : Instr), decodeWord w = .ok i → encode i = w ∧ i.wellFormed = true

/-- R64 to R68 against R70: dispatch by nibble and secondary key is the first match in the opcode map, for every word
(the spec's own decisions D8, D9 included; log entries 11, 18). -/
def Obligations.DispatchIsTheFirstMatchOfTheOpcodeMap : Prop :=
  ∀ w : Word, decodeWord w = decodeByMap w

/-- R71: the words without a handler are exactly the decode gaps (D8, D9 included), and the machine-code calls exactly the
words of family 0 other than 0x00E0 and 0x00EE. -/
def Obligations.DecodeGapsAreExactlyTheSpecs : Prop :=
  ∀ w : Word,
    (decodeWord w = .error (.illegalOpcode w) ↔
      (w.toNat / 0x1000 = 0x8 ∧ w.toNat % 0x10 ∈ [0x8, 0x9, 0xA, 0xB, 0xC, 0xD, 0xF]) ∨
      (w.toNat / 0x1000 = 0xE ∧ w.toNat % 0x100 ∉ [0x9E, 0xA1]) ∨
      (w.toNat / 0x1000 = 0xF ∧ w.toNat % 0x100 ∉ [0x07, 0x0A, 0x15, 0x18, 0x1E, 0x29, 0x33, 0x55, 0x65])) ∧
    ((∃ nnn, decodeWord w = .ok (.op0NNN nnn)) ↔ w.toNat / 0x1000 = 0 ∧ w.toNat ≠ 0x00E0 ∧ w.toNat ≠ 0x00EE)

/-! ### The whole machine -/

/-- R29 (which the spec marks as derived): the invariant holds after reset. -/
def Obligations.ResetMeetsTheInvariant : Prop := State.reset.Inv

/-- R29 (which the spec marks as derived), R14, R12: every event, from every state with the invariant, leaves the invariant;
that memory keeps its canonical form is the model's own clause. -/
def Obligations.EveryEventKeepsTheInvariant : Prop :=
  ∀ s t : State, s.Inv → step s = .next t → t.Inv

/-- R160 to R165: in every state that events lead to from one like it, the latches of a halted core explain the fault: the
word recorded decodes to what raises the condition, the stack is as it requires, and `pc` follows the recorded address (the
spec's own decision D17; log entries 6, 7). -/
def Obligations.EveryEventKeepsLatchesThatExplain : Prop :=
  ∀ s t : State, s.LatchesExplain → step s = .next t → t.LatchesExplain

/-- R24, R175: `dt_fresh` is set only while `delay` is above 0, and every event keeps that (the spec's own decision D15; log
entries 14, 20). -/
def Obligations.EveryEventKeepsFreshDelayPositive : Prop :=
  ∀ s t : State, (s.dtFresh = true → 0 < s.delay.toNat) → step s = .next t → (t.dtFresh = true → 0 < t.delay.toNat)

/-- R28 (which the spec marks as derived), R11: which instructions write what, over all instructions and states. -/
def Obligations.OnlyTheListedInstructionsWriteEachElement : Prop :=
  ∀ (i : Instr) (s t : State), exec i s = .next t →
    (∀ r : RegIdx, t.V[r] ≠ s.V[r] → MayWriteReg r i) ∧
    (t.I ≠ s.I → (∃ nnn, i = .opANNN nnn) ∨ ∃ x, i = .opFX1E x ∨ i = .opFX29 x ∨ i = .opFX55 x ∨ i = .opFX65 x) ∧
    (t.pc ≠ s.pc → i = .op00EE ∨ (∃ nnn, i = .op1NNN nnn ∨ i = .op2NNN nnn ∨ i = .opBNNN nnn) ∨
      (∃ x nn, i = .op3XNN x nn ∨ i = .op4XNN x nn) ∨ (∃ x y u, i = .op5XY0 x y u ∨ i = .op9XY0 x y u) ∨
      ∃ x, i = .opEX9E x ∨ i = .opEXA1 x ∨ i = .opFX0A x) ∧
    ((t.stack ≠ s.stack ∨ t.sp ≠ s.sp) → i = .op00EE ∨ ∃ nnn, i = .op2NNN nnn) ∧
    (t.delay ≠ s.delay → ∃ x, i = .opFX15 x) ∧
    (t.sound ≠ s.sound → ∃ x, i = .opFX18 x) ∧
    ((∃ a, t.readByte a ≠ s.readByte a) → ∃ x, i = .opFX33 x ∨ i = .opFX55 x) ∧
    (t.screen ≠ s.screen → i = .op00E0 ∨ ∃ x y n, i = .opDXYN x y n) ∧
    ((t.halted ≠ s.halted ∨ t.faultCode ≠ s.faultCode ∨ t.faultPc ≠ s.faultPc ∨ t.faultWord ≠ s.faultWord) →
      i = .op00EE ∨ ∃ nnn, i = .op0NNN nnn ∨ i = .op2NNN nnn) ∧
    t.keypad = s.keypad ∧ t.beepReq = s.beepReq ∧ t.dtFresh = s.dtFresh ∧ t.schedule = s.schedule

/-- R11: the flag writers leave 0 or 1 in VF at every execution. -/
def Obligations.FlagWritersLeaveZeroOrOne : Prop :=
  ∀ (i : Instr) (s t : State), WritesFlag i → exec i s = .next t → t.V[vF] = 0 ∨ t.V[vF] = 1

/-- R20, R24, R25, R30: no instruction reads `sound`, `dt_fresh`, `beep_req` or a fault latch: from two states that agree on
the rest, the same instruction leads to two states that agree on the rest. -/
def Obligations.ProgramsCannotReadTheOutputs : Prop :=
  ∀ (i : Instr) (s s' t : State), SameView s s' → exec i s = .next t → ∃ t', exec i s' = .next t' ∧ SameView t t'

/-- R183 (the spec's own convention, D23): a finished program stays finished under every event but a reset, and later events
change no register, `I`, `pc`, stack, screen or memory. -/
def Obligations.FinishedProgramStaysFinished : Prop :=
  ∀ s t : State, s.finished = true → s.pc.toNat ≤ 0xFFF → (∀ image es, s.schedule ≠ .reset image :: es) →
    step s = .next t →
    t.finished = true ∧ t.V = s.V ∧ t.I = s.I ∧ t.pc = s.pc ∧ t.stack = s.stack ∧ t.sp = s.sp ∧ t.screen = s.screen ∧
      t.memory = s.memory ∧ t.halted = false
end

