-- ==== Sys2Proof/Laws/Decode.lean ====
section
/-! SUPPORT. The fields of the words that the formats make (30_encoding.md R61, R62). -/

namespace Sys2Proof

@[simp] theorem regBits_toFin (x : RegIdx) : (regBits x).toFin = x := rfl

section formatA
variable (op : BitVec 4) (nnn : Addr)

@[simp] theorem fieldOP_encodeA : fieldOP (encodeA op nnn) = op := by
  apply BitVec.eq_of_getLsbD_eq; intro i hi
  simp only [fieldOP, encodeA, BitVec.getLsbD_extractLsb', BitVec.getLsbD_append]
  simp [hi]

@[simp] theorem fieldNNN_encodeA : fieldNNN (encodeA op nnn) = nnn := by
  apply BitVec.eq_of_getLsbD_eq; intro i hi
  simp only [fieldNNN, encodeA, BitVec.getLsbD_extractLsb', BitVec.getLsbD_append]
  simp [hi]

theorem encodeA_toNat : (encodeA op nnn).toNat = op.toNat * 0x1000 + nnn.toNat := by
  have hn := nnn.isLt
  have : (encodeA op nnn).toNat = op.toNat <<< 12 ||| nnn.toNat := BitVec.toNat_append op nnn
  rw [this, ← Nat.shiftLeft_add_eq_or_of_lt hn, Nat.shiftLeft_eq]

end formatA

section formatRI
variable (op : BitVec 4) (x : RegIdx) (nn : Byte)

@[simp] theorem fieldOP_encodeRI : fieldOP (encodeRI op x nn) = op := by
  apply BitVec.eq_of_getLsbD_eq; intro i hi
  simp only [fieldOP, encodeRI, BitVec.getLsbD_extractLsb', BitVec.getLsbD_append]
  have h1 : ¬ (12 + i < 8) := by omega
  have h2 : ¬ (12 + i - 8 < 4) := by omega
  have h3 : 12 + i - 8 - 4 = i := by omega
  simp [hi, h1, h2, h3]

@[simp] theorem fieldX_encodeRI : fieldX (encodeRI op x nn) = x := by
  have : (encodeRI op x nn).extractLsb' 8 4 = regBits x := by
    apply BitVec.eq_of_getLsbD_eq; intro i hi
    simp only [encodeRI, BitVec.getLsbD_extractLsb', BitVec.getLsbD_append]
    simp [hi]
  simp [fieldX, this]

@[simp] theorem fieldNN_encodeRI : fieldNN (encodeRI op x nn) = nn := by
  apply BitVec.eq_of_getLsbD_eq; intro i hi
  simp only [fieldNN, encodeRI, BitVec.getLsbD_extractLsb', BitVec.getLsbD_append]
  simp [hi]

end formatRI

section formatRF
variable (op : BitVec 4) (x : RegIdx) (f : Byte)

theorem encodeRF_eq : encodeRF op x f = encodeRI op x f := rfl

@[simp] theorem fieldOP_encodeRF : fieldOP (encodeRF op x f) = op := by simp [encodeRF_eq]
@[simp] theorem fieldX_encodeRF : fieldX (encodeRF op x f) = x := by simp [encodeRF_eq]
@[simp] theorem fieldNN_encodeRF : fieldNN (encodeRF op x f) = f := by simp [encodeRF_eq]

end formatRF

section formatRR
variable (op : BitVec 4) (x y : RegIdx) (n : BitVec 4)

@[simp] theorem fieldOP_encodeRR : fieldOP (encodeRR op x y n) = op := by
  apply BitVec.eq_of_getLsbD_eq; intro i hi
  simp only [fieldOP, encodeRR, BitVec.getLsbD_extractLsb', BitVec.getLsbD_append]
  have h1 : ¬ (12 + i < 4) := by omega
  have h2 : ¬ (12 + i - 4 < 4) := by omega
  have h3 : ¬ (12 + i - 4 - 4 < 4) := by omega
  have h4 : 12 + i - 4 - 4 - 4 = i := by omega
  simp [hi, h1, h2, h3, h4]

@[simp] theorem fieldX_encodeRR : fieldX (encodeRR op x y n) = x := by
  have : (encodeRR op x y n).extractLsb' 8 4 = regBits x := by
    apply BitVec.eq_of_getLsbD_eq; intro i hi
    simp only [encodeRR, BitVec.getLsbD_extractLsb', BitVec.getLsbD_append]
    have h1 : ¬ (8 + i < 4) := by omega
    have h2 : ¬ (8 + i - 4 < 4) := by omega
    have h3 : 8 + i - 4 - 4 = i := by omega
    simp [hi, h1, h2, h3]
  simp [fieldX, this]

@[simp] theorem fieldY_encodeRR : fieldY (encodeRR op x y n) = y := by
  have : (encodeRR op x y n).extractLsb' 4 4 = regBits y := by
    apply BitVec.eq_of_getLsbD_eq; intro i hi
    simp only [encodeRR, BitVec.getLsbD_extractLsb', BitVec.getLsbD_append]
    simp [hi]
  simp [fieldY, this]

@[simp] theorem fieldN_encodeRR : fieldN (encodeRR op x y n) = n := by
  apply BitVec.eq_of_getLsbD_eq; intro i hi
  simp only [fieldN, encodeRR, BitVec.getLsbD_extractLsb', BitVec.getLsbD_append]
  simp [hi]

end formatRR

/-- The word of two bytes is cut back into the same bytes (R41). -/
@[simp] theorem wordOfBytes_high_low (w : Word) : wordOfBytes (highByte w) (lowByte w) = w := by
  apply BitVec.eq_of_getLsbD_eq; intro i hi
  simp only [wordOfBytes, highByte, lowByte, BitVec.getLsbD_append, BitVec.getLsbD_extractLsb']
  by_cases h : i < 8
  · simp [h]
  · have h1 : i - 8 < 8 := by omega
    have h2 : 8 + (i - 8) = i := by omega
    simp [h, h1, h2]

/-! ### Words of the formats as numbers (R62) -/

theorem encodeRI_toNat (op : BitVec 4) (x : RegIdx) (nn : Byte) :
    (encodeRI op x nn).toNat = op.toNat * 0x1000 + x.val * 0x100 + nn.toNat := by
  have e : encodeRI op x nn = encodeA op (regBits x ++ nn) := by
    apply BitVec.eq_of_getLsbD_eq; intro i hi
    simp only [encodeRI, encodeA, BitVec.getLsbD_append]
    by_cases h1 : i < 8
    · have : i < 12 := by omega
      simp [h1, this]
    · by_cases h2 : i < 12
      · have : i - 8 < 4 := by omega
        simp [h1, h2, this]
      · have : ¬ (i - 8 < 4) := by omega
        have e : i - 8 - 4 = i - 12 := by omega
        simp [h1, h2, this, e]
  have h : (regBits x ++ nn).toNat = x.val * 0x100 + nn.toNat := by
    rw [BitVec.toNat_append, ← Nat.shiftLeft_add_eq_or_of_lt nn.isLt, Nat.shiftLeft_eq]; rfl
  rw [e, encodeA_toNat, h]; omega

theorem encodeRR_toNat (op : BitVec 4) (x y : RegIdx) (n : BitVec 4) :
    (encodeRR op x y n).toNat = op.toNat * 0x1000 + x.val * 0x100 + y.val * 0x10 + n.toNat := by
  have e : encodeRR op x y n = encodeRI op x (regBits y ++ n) := by
    apply BitVec.eq_of_getLsbD_eq; intro i hi
    simp only [encodeRI, encodeRR, BitVec.getLsbD_append]
    by_cases h1 : i < 4
    · have : i < 8 := by omega
      simp [h1, this]
    · by_cases h2 : i < 8
      · have : i - 4 < 4 := by omega
        simp [h1, h2, this]
      · have h3 : ¬ (i - 4 < 4) := by omega
        have e : i - 4 - 4 = i - 8 := by omega
        simp [h1, h2, h3, e]
  have h : (regBits y ++ n).toNat = y.val * 0x10 + n.toNat := by
    rw [BitVec.toNat_append, ← Nat.shiftLeft_add_eq_or_of_lt n.isLt, Nat.shiftLeft_eq]; rfl
  rw [e, encodeRI_toNat, h]; omega

/-- The one reason a whole word is not decoded (R71). -/
theorem decodeWord_error {w : Word} {e : DecodeError} (h : decodeWord w = .error e) : e = .illegalOpcode w := by
  unfold decodeWord decodeFamily8 decodeFamilyE decodeFamilyF at h
  repeat' split at h
  all_goals first | (injection h with h; exact h.symm) | (cases h)

end Sys2Proof
end

