-- ==== Sys2Proof/Laws/Memory.lean ====
section
/-! SUPPORT. The laws of memory: a read after a write, the canonical form kept by every write, and what a run of bytes
leaves alone. -/

namespace Sys2Proof.Machine.Memory

theorem lookup_filter_self (m : Memory) (a : Nat) : lookup (m.filter (fun c => c.1 != a)) a = unlisted a := by
  induction m with
  | nil => rfl
  | cons c m ih => by_cases h : c.1 = a <;> simp [lookup, h, ih]

theorem lookup_filter_other (m : Memory) {a b : Nat} (h : b ≠ a) :
    lookup (m.filter (fun c => c.1 != a)) b = lookup m b := by
  induction m with
  | nil => rfl
  | cons c m ih =>
    by_cases hc : c.1 = a
    · have : c.1 ≠ b := fun e => h (e.symm.trans hc)
      simp [lookup, hc, ih, Ne.symm h]
    · simp [lookup, hc, ih]

theorem lookup_insertCell_other (c : Host.Cell) (m : Memory) {b : Nat} (h : b ≠ c.1) :
    lookup (insertCell c m) b = lookup m b := by
  induction m with
  | nil => simp [insertCell, lookup, Ne.symm h]
  | cons d m ih =>
    by_cases hd : c.1 < d.1
    · simp [insertCell, hd, lookup, Ne.symm h]
    · simp [insertCell, hd, lookup, ih]

theorem lookup_insertCell_self (c : Host.Cell) (m : Memory) (h : ∀ d ∈ m, d.1 ≠ c.1) :
    lookup (insertCell c m) c.1 = c.2 := by
  induction m with
  | nil => simp [insertCell, lookup]
  | cons d m ih =>
    by_cases hd : c.1 < d.1
    · simp [insertCell, hd, lookup]
    · have hne := h d (by simp)
      simp [insertCell, hd, lookup, hne, ih (fun e he => h e (by simp [he]))]

/-- A read after a write (R45): the value written at the same address, what was there at every other. -/
theorem read_write (m : Memory) (a b : Addr) (v : Byte) :
    (m.write a v).read b = if b = a then v else m.read b := by
  unfold read write
  by_cases hab : b = a
  · subst hab
    by_cases hv : v = unlisted b.toNat
    · simp [hv, lookup_filter_self]
    · simpa [hv] using lookup_insertCell_self (b.toNat, v) _ (by simp)
  · have hn : b.toNat ≠ a.toNat := fun e => hab (BitVec.eq_of_toNat_eq e)
    by_cases hv : v = unlisted a.toNat
    · simp [hv, hab, lookup_filter_other m hn]
    · simp [hv, hab, lookup_insertCell_other (a.toNat, v) _ hn, lookup_filter_other m hn]

@[simp] theorem read_write_self (m : Memory) (a : Addr) (v : Byte) : (m.write a v).read a = v := by
  simp [read_write]

theorem read_write_other (m : Memory) {a b : Addr} (v : Byte) (h : b ≠ a) : (m.write a v).read b = m.read b := by
  simp [read_write, h]

/-! ### The canonical form -/

theorem mem_insertCell {c e : Host.Cell} {m : Memory} : e ∈ insertCell c m ↔ e = c ∨ e ∈ m := by
  induction m with
  | nil => simp [insertCell]
  | cons d m ih =>
    by_cases hd : c.1 < d.1
    · simp [insertCell, hd]
    · simp only [insertCell, hd, if_false, List.mem_cons, ih]
      tauto

theorem insertCell_pairwise {c : Host.Cell} {m : Memory} (hm : m.Pairwise (fun d e => d.1 < e.1))
    (hc : ∀ d ∈ m, d.1 ≠ c.1) : (insertCell c m).Pairwise (fun d e => d.1 < e.1) := by
  induction m with
  | nil => simp [insertCell]
  | cons d m ih =>
    rw [List.pairwise_cons] at hm
    by_cases hd : c.1 < d.1
    · simp only [insertCell, hd, if_true, List.pairwise_cons]
      refine ⟨fun e he => ?_, hm.1, hm.2⟩
      rcases List.mem_cons.mp he with rfl | he
      · exact hd
      · exact hd.trans (hm.1 e he)
    · have hne := hc d (by simp)
      simp only [insertCell, hd, if_false, List.pairwise_cons]
      refine ⟨fun e he => ?_, ih hm.2 (fun e he => hc e (by simp [he]))⟩
      rcases mem_insertCell.mp he with rfl | he
      · omega
      · exact hm.1 e he

/-- Every write keeps the canonical form. -/
theorem write_wf {m : Memory} (h : m.wf) (a : Addr) (v : Byte) : (m.write a v).wf := by
  have hp : (m.filter (fun c => c.1 != a.toNat)).Pairwise (fun c d => c.1 < d.1) := h.1.sublist List.filter_sublist
  have hq : ∀ c ∈ m.filter (fun c => c.1 != a.toNat), c.1 < Config.memSize ∧ c.2 ≠ unlisted c.1 :=
    fun c hc => h.2 c (List.mem_of_mem_filter hc)
  unfold write
  by_cases hv : v = unlisted a.toNat
  · simp only [hv, if_true]
    exact ⟨hp, hq⟩
  · simp only [hv, if_false]
    refine ⟨insertCell_pairwise hp (by simp), fun c hc => ?_⟩
    rcases mem_insertCell.mp hc with rfl | hc
    · exact ⟨a.isLt, hv⟩
    · exact hq c hc

theorem writeBytes_wf {m : Memory} (h : m.wf) (a : Addr) (bs : List Byte) : (m.writeBytes a bs).wf := by
  induction bs generalizing m a with
  | nil => exact h
  | cons b bs ih => exact ih (write_wf h a b) (a + 1)

theorem wf_nil : wf [] := ⟨List.Pairwise.nil, by simp⟩

theorem withImage_wf (image : List Byte) : (withImage image).wf := writeBytes_wf wf_nil _ image

/-- The memory of the reset state has the canonical form. -/
theorem reset_wf : State.reset.memory.wf := wf_nil

end Sys2Proof.Machine.Memory
end

