-- ==== Sys2Proof/Laws/State.lean ====
section
/-! SUPPORT. One lemma per field of State per update of `Machine/Ops.lean`, true by rfl: later proofs unfold no update. -/

namespace Sys2Proof.Machine.State

variable (s : State)

/-! ### writeV -/

@[simp] theorem writeV_V (x : RegIdx) (b : Byte) : (s.writeV x b).V = s.V.set x.val b x.isLt := rfl
@[simp] theorem writeV_I (x : RegIdx) (b : Byte) : (s.writeV x b).I = s.I := rfl
@[simp] theorem writeV_pc (x : RegIdx) (b : Byte) : (s.writeV x b).pc = s.pc := rfl
@[simp] theorem writeV_stack (x : RegIdx) (b : Byte) : (s.writeV x b).stack = s.stack := rfl
@[simp] theorem writeV_sp (x : RegIdx) (b : Byte) : (s.writeV x b).sp = s.sp := rfl
@[simp] theorem writeV_delay (x : RegIdx) (b : Byte) : (s.writeV x b).delay = s.delay := rfl
@[simp] theorem writeV_sound (x : RegIdx) (b : Byte) : (s.writeV x b).sound = s.sound := rfl
@[simp] theorem writeV_keypad (x : RegIdx) (b : Byte) : (s.writeV x b).keypad = s.keypad := rfl
@[simp] theorem writeV_screen (x : RegIdx) (b : Byte) : (s.writeV x b).screen = s.screen := rfl
@[simp] theorem writeV_memory (x : RegIdx) (b : Byte) : (s.writeV x b).memory = s.memory := rfl
@[simp] theorem writeV_dtFresh (x : RegIdx) (b : Byte) : (s.writeV x b).dtFresh = s.dtFresh := rfl
@[simp] theorem writeV_halted (x : RegIdx) (b : Byte) : (s.writeV x b).halted = s.halted := rfl
@[simp] theorem writeV_faultCode (x : RegIdx) (b : Byte) : (s.writeV x b).faultCode = s.faultCode := rfl
@[simp] theorem writeV_faultPc (x : RegIdx) (b : Byte) : (s.writeV x b).faultPc = s.faultPc := rfl
@[simp] theorem writeV_faultWord (x : RegIdx) (b : Byte) : (s.writeV x b).faultWord = s.faultWord := rfl
@[simp] theorem writeV_beepReq (x : RegIdx) (b : Byte) : (s.writeV x b).beepReq = s.beepReq := rfl
@[simp] theorem writeV_rndIndex (x : RegIdx) (b : Byte) : (s.writeV x b).rndIndex = s.rndIndex := rfl
@[simp] theorem writeV_schedule (x : RegIdx) (b : Byte) : (s.writeV x b).schedule = s.schedule := rfl

/-! ### setRegs -/

@[simp] theorem setRegs_V (V : Vector Byte 16) : (s.setRegs V).V = V := rfl
@[simp] theorem setRegs_I (V : Vector Byte 16) : (s.setRegs V).I = s.I := rfl
@[simp] theorem setRegs_pc (V : Vector Byte 16) : (s.setRegs V).pc = s.pc := rfl
@[simp] theorem setRegs_stack (V : Vector Byte 16) : (s.setRegs V).stack = s.stack := rfl
@[simp] theorem setRegs_sp (V : Vector Byte 16) : (s.setRegs V).sp = s.sp := rfl
@[simp] theorem setRegs_delay (V : Vector Byte 16) : (s.setRegs V).delay = s.delay := rfl
@[simp] theorem setRegs_sound (V : Vector Byte 16) : (s.setRegs V).sound = s.sound := rfl
@[simp] theorem setRegs_keypad (V : Vector Byte 16) : (s.setRegs V).keypad = s.keypad := rfl
@[simp] theorem setRegs_screen (V : Vector Byte 16) : (s.setRegs V).screen = s.screen := rfl
@[simp] theorem setRegs_memory (V : Vector Byte 16) : (s.setRegs V).memory = s.memory := rfl
@[simp] theorem setRegs_dtFresh (V : Vector Byte 16) : (s.setRegs V).dtFresh = s.dtFresh := rfl
@[simp] theorem setRegs_halted (V : Vector Byte 16) : (s.setRegs V).halted = s.halted := rfl
@[simp] theorem setRegs_faultCode (V : Vector Byte 16) : (s.setRegs V).faultCode = s.faultCode := rfl
@[simp] theorem setRegs_faultPc (V : Vector Byte 16) : (s.setRegs V).faultPc = s.faultPc := rfl
@[simp] theorem setRegs_faultWord (V : Vector Byte 16) : (s.setRegs V).faultWord = s.faultWord := rfl
@[simp] theorem setRegs_beepReq (V : Vector Byte 16) : (s.setRegs V).beepReq = s.beepReq := rfl
@[simp] theorem setRegs_rndIndex (V : Vector Byte 16) : (s.setRegs V).rndIndex = s.rndIndex := rfl
@[simp] theorem setRegs_schedule (V : Vector Byte 16) : (s.setRegs V).schedule = s.schedule := rfl

/-! ### setI -/

@[simp] theorem setI_V (a : Word) : (s.setI a).V = s.V := rfl
@[simp] theorem setI_I (a : Word) : (s.setI a).I = a := rfl
@[simp] theorem setI_pc (a : Word) : (s.setI a).pc = s.pc := rfl
@[simp] theorem setI_stack (a : Word) : (s.setI a).stack = s.stack := rfl
@[simp] theorem setI_sp (a : Word) : (s.setI a).sp = s.sp := rfl
@[simp] theorem setI_delay (a : Word) : (s.setI a).delay = s.delay := rfl
@[simp] theorem setI_sound (a : Word) : (s.setI a).sound = s.sound := rfl
@[simp] theorem setI_keypad (a : Word) : (s.setI a).keypad = s.keypad := rfl
@[simp] theorem setI_screen (a : Word) : (s.setI a).screen = s.screen := rfl
@[simp] theorem setI_memory (a : Word) : (s.setI a).memory = s.memory := rfl
@[simp] theorem setI_dtFresh (a : Word) : (s.setI a).dtFresh = s.dtFresh := rfl
@[simp] theorem setI_halted (a : Word) : (s.setI a).halted = s.halted := rfl
@[simp] theorem setI_faultCode (a : Word) : (s.setI a).faultCode = s.faultCode := rfl
@[simp] theorem setI_faultPc (a : Word) : (s.setI a).faultPc = s.faultPc := rfl
@[simp] theorem setI_faultWord (a : Word) : (s.setI a).faultWord = s.faultWord := rfl
@[simp] theorem setI_beepReq (a : Word) : (s.setI a).beepReq = s.beepReq := rfl
@[simp] theorem setI_rndIndex (a : Word) : (s.setI a).rndIndex = s.rndIndex := rfl
@[simp] theorem setI_schedule (a : Word) : (s.setI a).schedule = s.schedule := rfl

/-! ### setPc -/

@[simp] theorem setPc_V (a : Word) : (s.setPc a).V = s.V := rfl
@[simp] theorem setPc_I (a : Word) : (s.setPc a).I = s.I := rfl
@[simp] theorem setPc_pc (a : Word) : (s.setPc a).pc = a := rfl
@[simp] theorem setPc_stack (a : Word) : (s.setPc a).stack = s.stack := rfl
@[simp] theorem setPc_sp (a : Word) : (s.setPc a).sp = s.sp := rfl
@[simp] theorem setPc_delay (a : Word) : (s.setPc a).delay = s.delay := rfl
@[simp] theorem setPc_sound (a : Word) : (s.setPc a).sound = s.sound := rfl
@[simp] theorem setPc_keypad (a : Word) : (s.setPc a).keypad = s.keypad := rfl
@[simp] theorem setPc_screen (a : Word) : (s.setPc a).screen = s.screen := rfl
@[simp] theorem setPc_memory (a : Word) : (s.setPc a).memory = s.memory := rfl
@[simp] theorem setPc_dtFresh (a : Word) : (s.setPc a).dtFresh = s.dtFresh := rfl
@[simp] theorem setPc_halted (a : Word) : (s.setPc a).halted = s.halted := rfl
@[simp] theorem setPc_faultCode (a : Word) : (s.setPc a).faultCode = s.faultCode := rfl
@[simp] theorem setPc_faultPc (a : Word) : (s.setPc a).faultPc = s.faultPc := rfl
@[simp] theorem setPc_faultWord (a : Word) : (s.setPc a).faultWord = s.faultWord := rfl
@[simp] theorem setPc_beepReq (a : Word) : (s.setPc a).beepReq = s.beepReq := rfl
@[simp] theorem setPc_rndIndex (a : Word) : (s.setPc a).rndIndex = s.rndIndex := rfl
@[simp] theorem setPc_schedule (a : Word) : (s.setPc a).schedule = s.schedule := rfl

/-! ### setStack -/

@[simp] theorem setStack_V (e : Vector Word 16) (d : Fin 17) : (s.setStack e d).V = s.V := rfl
@[simp] theorem setStack_I (e : Vector Word 16) (d : Fin 17) : (s.setStack e d).I = s.I := rfl
@[simp] theorem setStack_pc (e : Vector Word 16) (d : Fin 17) : (s.setStack e d).pc = s.pc := rfl
@[simp] theorem setStack_stack (e : Vector Word 16) (d : Fin 17) : (s.setStack e d).stack = e := rfl
@[simp] theorem setStack_sp (e : Vector Word 16) (d : Fin 17) : (s.setStack e d).sp = d := rfl
@[simp] theorem setStack_delay (e : Vector Word 16) (d : Fin 17) : (s.setStack e d).delay = s.delay := rfl
@[simp] theorem setStack_sound (e : Vector Word 16) (d : Fin 17) : (s.setStack e d).sound = s.sound := rfl
@[simp] theorem setStack_keypad (e : Vector Word 16) (d : Fin 17) : (s.setStack e d).keypad = s.keypad := rfl
@[simp] theorem setStack_screen (e : Vector Word 16) (d : Fin 17) : (s.setStack e d).screen = s.screen := rfl
@[simp] theorem setStack_memory (e : Vector Word 16) (d : Fin 17) : (s.setStack e d).memory = s.memory := rfl
@[simp] theorem setStack_dtFresh (e : Vector Word 16) (d : Fin 17) : (s.setStack e d).dtFresh = s.dtFresh := rfl
@[simp] theorem setStack_halted (e : Vector Word 16) (d : Fin 17) : (s.setStack e d).halted = s.halted := rfl
@[simp] theorem setStack_faultCode (e : Vector Word 16) (d : Fin 17) : (s.setStack e d).faultCode = s.faultCode := rfl
@[simp] theorem setStack_faultPc (e : Vector Word 16) (d : Fin 17) : (s.setStack e d).faultPc = s.faultPc := rfl
@[simp] theorem setStack_faultWord (e : Vector Word 16) (d : Fin 17) : (s.setStack e d).faultWord = s.faultWord := rfl
@[simp] theorem setStack_beepReq (e : Vector Word 16) (d : Fin 17) : (s.setStack e d).beepReq = s.beepReq := rfl
@[simp] theorem setStack_rndIndex (e : Vector Word 16) (d : Fin 17) : (s.setStack e d).rndIndex = s.rndIndex := rfl
@[simp] theorem setStack_schedule (e : Vector Word 16) (d : Fin 17) : (s.setStack e d).schedule = s.schedule := rfl

/-! ### setDelay -/

@[simp] theorem setDelay_V (b : Byte) : (s.setDelay b).V = s.V := rfl
@[simp] theorem setDelay_I (b : Byte) : (s.setDelay b).I = s.I := rfl
@[simp] theorem setDelay_pc (b : Byte) : (s.setDelay b).pc = s.pc := rfl
@[simp] theorem setDelay_stack (b : Byte) : (s.setDelay b).stack = s.stack := rfl
@[simp] theorem setDelay_sp (b : Byte) : (s.setDelay b).sp = s.sp := rfl
@[simp] theorem setDelay_delay (b : Byte) : (s.setDelay b).delay = b := rfl
@[simp] theorem setDelay_sound (b : Byte) : (s.setDelay b).sound = s.sound := rfl
@[simp] theorem setDelay_keypad (b : Byte) : (s.setDelay b).keypad = s.keypad := rfl
@[simp] theorem setDelay_screen (b : Byte) : (s.setDelay b).screen = s.screen := rfl
@[simp] theorem setDelay_memory (b : Byte) : (s.setDelay b).memory = s.memory := rfl
@[simp] theorem setDelay_dtFresh (b : Byte) : (s.setDelay b).dtFresh = s.dtFresh := rfl
@[simp] theorem setDelay_halted (b : Byte) : (s.setDelay b).halted = s.halted := rfl
@[simp] theorem setDelay_faultCode (b : Byte) : (s.setDelay b).faultCode = s.faultCode := rfl
@[simp] theorem setDelay_faultPc (b : Byte) : (s.setDelay b).faultPc = s.faultPc := rfl
@[simp] theorem setDelay_faultWord (b : Byte) : (s.setDelay b).faultWord = s.faultWord := rfl
@[simp] theorem setDelay_beepReq (b : Byte) : (s.setDelay b).beepReq = s.beepReq := rfl
@[simp] theorem setDelay_rndIndex (b : Byte) : (s.setDelay b).rndIndex = s.rndIndex := rfl
@[simp] theorem setDelay_schedule (b : Byte) : (s.setDelay b).schedule = s.schedule := rfl

/-! ### setSound -/

@[simp] theorem setSound_V (b : Byte) : (s.setSound b).V = s.V := rfl
@[simp] theorem setSound_I (b : Byte) : (s.setSound b).I = s.I := rfl
@[simp] theorem setSound_pc (b : Byte) : (s.setSound b).pc = s.pc := rfl
@[simp] theorem setSound_stack (b : Byte) : (s.setSound b).stack = s.stack := rfl
@[simp] theorem setSound_sp (b : Byte) : (s.setSound b).sp = s.sp := rfl
@[simp] theorem setSound_delay (b : Byte) : (s.setSound b).delay = s.delay := rfl
@[simp] theorem setSound_sound (b : Byte) : (s.setSound b).sound = b := rfl
@[simp] theorem setSound_keypad (b : Byte) : (s.setSound b).keypad = s.keypad := rfl
@[simp] theorem setSound_screen (b : Byte) : (s.setSound b).screen = s.screen := rfl
@[simp] theorem setSound_memory (b : Byte) : (s.setSound b).memory = s.memory := rfl
@[simp] theorem setSound_dtFresh (b : Byte) : (s.setSound b).dtFresh = s.dtFresh := rfl
@[simp] theorem setSound_halted (b : Byte) : (s.setSound b).halted = s.halted := rfl
@[simp] theorem setSound_faultCode (b : Byte) : (s.setSound b).faultCode = s.faultCode := rfl
@[simp] theorem setSound_faultPc (b : Byte) : (s.setSound b).faultPc = s.faultPc := rfl
@[simp] theorem setSound_faultWord (b : Byte) : (s.setSound b).faultWord = s.faultWord := rfl
@[simp] theorem setSound_beepReq (b : Byte) : (s.setSound b).beepReq = s.beepReq := rfl
@[simp] theorem setSound_rndIndex (b : Byte) : (s.setSound b).rndIndex = s.rndIndex := rfl
@[simp] theorem setSound_schedule (b : Byte) : (s.setSound b).schedule = s.schedule := rfl

/-! ### setKeypad -/

@[simp] theorem setKeypad_V (k : BitVec 16) : (s.setKeypad k).V = s.V := rfl
@[simp] theorem setKeypad_I (k : BitVec 16) : (s.setKeypad k).I = s.I := rfl
@[simp] theorem setKeypad_pc (k : BitVec 16) : (s.setKeypad k).pc = s.pc := rfl
@[simp] theorem setKeypad_stack (k : BitVec 16) : (s.setKeypad k).stack = s.stack := rfl
@[simp] theorem setKeypad_sp (k : BitVec 16) : (s.setKeypad k).sp = s.sp := rfl
@[simp] theorem setKeypad_delay (k : BitVec 16) : (s.setKeypad k).delay = s.delay := rfl
@[simp] theorem setKeypad_sound (k : BitVec 16) : (s.setKeypad k).sound = s.sound := rfl
@[simp] theorem setKeypad_keypad (k : BitVec 16) : (s.setKeypad k).keypad = k := rfl
@[simp] theorem setKeypad_screen (k : BitVec 16) : (s.setKeypad k).screen = s.screen := rfl
@[simp] theorem setKeypad_memory (k : BitVec 16) : (s.setKeypad k).memory = s.memory := rfl
@[simp] theorem setKeypad_dtFresh (k : BitVec 16) : (s.setKeypad k).dtFresh = s.dtFresh := rfl
@[simp] theorem setKeypad_halted (k : BitVec 16) : (s.setKeypad k).halted = s.halted := rfl
@[simp] theorem setKeypad_faultCode (k : BitVec 16) : (s.setKeypad k).faultCode = s.faultCode := rfl
@[simp] theorem setKeypad_faultPc (k : BitVec 16) : (s.setKeypad k).faultPc = s.faultPc := rfl
@[simp] theorem setKeypad_faultWord (k : BitVec 16) : (s.setKeypad k).faultWord = s.faultWord := rfl
@[simp] theorem setKeypad_beepReq (k : BitVec 16) : (s.setKeypad k).beepReq = s.beepReq := rfl
@[simp] theorem setKeypad_rndIndex (k : BitVec 16) : (s.setKeypad k).rndIndex = s.rndIndex := rfl
@[simp] theorem setKeypad_schedule (k : BitVec 16) : (s.setKeypad k).schedule = s.schedule := rfl

/-! ### setScreen -/

@[simp] theorem setScreen_V (scr : Screen) : (s.setScreen scr).V = s.V := rfl
@[simp] theorem setScreen_I (scr : Screen) : (s.setScreen scr).I = s.I := rfl
@[simp] theorem setScreen_pc (scr : Screen) : (s.setScreen scr).pc = s.pc := rfl
@[simp] theorem setScreen_stack (scr : Screen) : (s.setScreen scr).stack = s.stack := rfl
@[simp] theorem setScreen_sp (scr : Screen) : (s.setScreen scr).sp = s.sp := rfl
@[simp] theorem setScreen_delay (scr : Screen) : (s.setScreen scr).delay = s.delay := rfl
@[simp] theorem setScreen_sound (scr : Screen) : (s.setScreen scr).sound = s.sound := rfl
@[simp] theorem setScreen_keypad (scr : Screen) : (s.setScreen scr).keypad = s.keypad := rfl
@[simp] theorem setScreen_screen (scr : Screen) : (s.setScreen scr).screen = scr := rfl
@[simp] theorem setScreen_memory (scr : Screen) : (s.setScreen scr).memory = s.memory := rfl
@[simp] theorem setScreen_dtFresh (scr : Screen) : (s.setScreen scr).dtFresh = s.dtFresh := rfl
@[simp] theorem setScreen_halted (scr : Screen) : (s.setScreen scr).halted = s.halted := rfl
@[simp] theorem setScreen_faultCode (scr : Screen) : (s.setScreen scr).faultCode = s.faultCode := rfl
@[simp] theorem setScreen_faultPc (scr : Screen) : (s.setScreen scr).faultPc = s.faultPc := rfl
@[simp] theorem setScreen_faultWord (scr : Screen) : (s.setScreen scr).faultWord = s.faultWord := rfl
@[simp] theorem setScreen_beepReq (scr : Screen) : (s.setScreen scr).beepReq = s.beepReq := rfl
@[simp] theorem setScreen_rndIndex (scr : Screen) : (s.setScreen scr).rndIndex = s.rndIndex := rfl
@[simp] theorem setScreen_schedule (scr : Screen) : (s.setScreen scr).schedule = s.schedule := rfl

/-! ### setMemory -/

@[simp] theorem setMemory_V (m : Memory) : (s.setMemory m).V = s.V := rfl
@[simp] theorem setMemory_I (m : Memory) : (s.setMemory m).I = s.I := rfl
@[simp] theorem setMemory_pc (m : Memory) : (s.setMemory m).pc = s.pc := rfl
@[simp] theorem setMemory_stack (m : Memory) : (s.setMemory m).stack = s.stack := rfl
@[simp] theorem setMemory_sp (m : Memory) : (s.setMemory m).sp = s.sp := rfl
@[simp] theorem setMemory_delay (m : Memory) : (s.setMemory m).delay = s.delay := rfl
@[simp] theorem setMemory_sound (m : Memory) : (s.setMemory m).sound = s.sound := rfl
@[simp] theorem setMemory_keypad (m : Memory) : (s.setMemory m).keypad = s.keypad := rfl
@[simp] theorem setMemory_screen (m : Memory) : (s.setMemory m).screen = s.screen := rfl
@[simp] theorem setMemory_memory (m : Memory) : (s.setMemory m).memory = m := rfl
@[simp] theorem setMemory_dtFresh (m : Memory) : (s.setMemory m).dtFresh = s.dtFresh := rfl
@[simp] theorem setMemory_halted (m : Memory) : (s.setMemory m).halted = s.halted := rfl
@[simp] theorem setMemory_faultCode (m : Memory) : (s.setMemory m).faultCode = s.faultCode := rfl
@[simp] theorem setMemory_faultPc (m : Memory) : (s.setMemory m).faultPc = s.faultPc := rfl
@[simp] theorem setMemory_faultWord (m : Memory) : (s.setMemory m).faultWord = s.faultWord := rfl
@[simp] theorem setMemory_beepReq (m : Memory) : (s.setMemory m).beepReq = s.beepReq := rfl
@[simp] theorem setMemory_rndIndex (m : Memory) : (s.setMemory m).rndIndex = s.rndIndex := rfl
@[simp] theorem setMemory_schedule (m : Memory) : (s.setMemory m).schedule = s.schedule := rfl

/-! ### setDtFresh -/

@[simp] theorem setDtFresh_V (b : Bool) : (s.setDtFresh b).V = s.V := rfl
@[simp] theorem setDtFresh_I (b : Bool) : (s.setDtFresh b).I = s.I := rfl
@[simp] theorem setDtFresh_pc (b : Bool) : (s.setDtFresh b).pc = s.pc := rfl
@[simp] theorem setDtFresh_stack (b : Bool) : (s.setDtFresh b).stack = s.stack := rfl
@[simp] theorem setDtFresh_sp (b : Bool) : (s.setDtFresh b).sp = s.sp := rfl
@[simp] theorem setDtFresh_delay (b : Bool) : (s.setDtFresh b).delay = s.delay := rfl
@[simp] theorem setDtFresh_sound (b : Bool) : (s.setDtFresh b).sound = s.sound := rfl
@[simp] theorem setDtFresh_keypad (b : Bool) : (s.setDtFresh b).keypad = s.keypad := rfl
@[simp] theorem setDtFresh_screen (b : Bool) : (s.setDtFresh b).screen = s.screen := rfl
@[simp] theorem setDtFresh_memory (b : Bool) : (s.setDtFresh b).memory = s.memory := rfl
@[simp] theorem setDtFresh_dtFresh (b : Bool) : (s.setDtFresh b).dtFresh = b := rfl
@[simp] theorem setDtFresh_halted (b : Bool) : (s.setDtFresh b).halted = s.halted := rfl
@[simp] theorem setDtFresh_faultCode (b : Bool) : (s.setDtFresh b).faultCode = s.faultCode := rfl
@[simp] theorem setDtFresh_faultPc (b : Bool) : (s.setDtFresh b).faultPc = s.faultPc := rfl
@[simp] theorem setDtFresh_faultWord (b : Bool) : (s.setDtFresh b).faultWord = s.faultWord := rfl
@[simp] theorem setDtFresh_beepReq (b : Bool) : (s.setDtFresh b).beepReq = s.beepReq := rfl
@[simp] theorem setDtFresh_rndIndex (b : Bool) : (s.setDtFresh b).rndIndex = s.rndIndex := rfl
@[simp] theorem setDtFresh_schedule (b : Bool) : (s.setDtFresh b).schedule = s.schedule := rfl

/-! ### setBeepReq -/

@[simp] theorem setBeepReq_V (b : Bool) : (s.setBeepReq b).V = s.V := rfl
@[simp] theorem setBeepReq_I (b : Bool) : (s.setBeepReq b).I = s.I := rfl
@[simp] theorem setBeepReq_pc (b : Bool) : (s.setBeepReq b).pc = s.pc := rfl
@[simp] theorem setBeepReq_stack (b : Bool) : (s.setBeepReq b).stack = s.stack := rfl
@[simp] theorem setBeepReq_sp (b : Bool) : (s.setBeepReq b).sp = s.sp := rfl
@[simp] theorem setBeepReq_delay (b : Bool) : (s.setBeepReq b).delay = s.delay := rfl
@[simp] theorem setBeepReq_sound (b : Bool) : (s.setBeepReq b).sound = s.sound := rfl
@[simp] theorem setBeepReq_keypad (b : Bool) : (s.setBeepReq b).keypad = s.keypad := rfl
@[simp] theorem setBeepReq_screen (b : Bool) : (s.setBeepReq b).screen = s.screen := rfl
@[simp] theorem setBeepReq_memory (b : Bool) : (s.setBeepReq b).memory = s.memory := rfl
@[simp] theorem setBeepReq_dtFresh (b : Bool) : (s.setBeepReq b).dtFresh = s.dtFresh := rfl
@[simp] theorem setBeepReq_halted (b : Bool) : (s.setBeepReq b).halted = s.halted := rfl
@[simp] theorem setBeepReq_faultCode (b : Bool) : (s.setBeepReq b).faultCode = s.faultCode := rfl
@[simp] theorem setBeepReq_faultPc (b : Bool) : (s.setBeepReq b).faultPc = s.faultPc := rfl
@[simp] theorem setBeepReq_faultWord (b : Bool) : (s.setBeepReq b).faultWord = s.faultWord := rfl
@[simp] theorem setBeepReq_beepReq (b : Bool) : (s.setBeepReq b).beepReq = b := rfl
@[simp] theorem setBeepReq_rndIndex (b : Bool) : (s.setBeepReq b).rndIndex = s.rndIndex := rfl
@[simp] theorem setBeepReq_schedule (b : Bool) : (s.setBeepReq b).schedule = s.schedule := rfl

/-! ### setLatches -/

@[simp] theorem setLatches_V (h : Bool) (c : BitVec 3) (a : Addr) (w : Word) : (s.setLatches h c a w).V = s.V := rfl
@[simp] theorem setLatches_I (h : Bool) (c : BitVec 3) (a : Addr) (w : Word) : (s.setLatches h c a w).I = s.I := rfl
@[simp] theorem setLatches_pc (h : Bool) (c : BitVec 3) (a : Addr) (w : Word) : (s.setLatches h c a w).pc = s.pc := rfl
@[simp] theorem setLatches_stack (h : Bool) (c : BitVec 3) (a : Addr) (w : Word) : (s.setLatches h c a w).stack = s.stack := rfl
@[simp] theorem setLatches_sp (h : Bool) (c : BitVec 3) (a : Addr) (w : Word) : (s.setLatches h c a w).sp = s.sp := rfl
@[simp] theorem setLatches_delay (h : Bool) (c : BitVec 3) (a : Addr) (w : Word) : (s.setLatches h c a w).delay = s.delay := rfl
@[simp] theorem setLatches_sound (h : Bool) (c : BitVec 3) (a : Addr) (w : Word) : (s.setLatches h c a w).sound = s.sound := rfl
@[simp] theorem setLatches_keypad (h : Bool) (c : BitVec 3) (a : Addr) (w : Word) : (s.setLatches h c a w).keypad = s.keypad := rfl
@[simp] theorem setLatches_screen (h : Bool) (c : BitVec 3) (a : Addr) (w : Word) : (s.setLatches h c a w).screen = s.screen := rfl
@[simp] theorem setLatches_memory (h : Bool) (c : BitVec 3) (a : Addr) (w : Word) : (s.setLatches h c a w).memory = s.memory := rfl
@[simp] theorem setLatches_dtFresh (h : Bool) (c : BitVec 3) (a : Addr) (w : Word) : (s.setLatches h c a w).dtFresh = s.dtFresh := rfl
@[simp] theorem setLatches_halted (h : Bool) (c : BitVec 3) (a : Addr) (w : Word) : (s.setLatches h c a w).halted = h := rfl
@[simp] theorem setLatches_faultCode (h : Bool) (c : BitVec 3) (a : Addr) (w : Word) : (s.setLatches h c a w).faultCode = c := rfl
@[simp] theorem setLatches_faultPc (h : Bool) (c : BitVec 3) (a : Addr) (w : Word) : (s.setLatches h c a w).faultPc = a := rfl
@[simp] theorem setLatches_faultWord (h : Bool) (c : BitVec 3) (a : Addr) (w : Word) : (s.setLatches h c a w).faultWord = w := rfl
@[simp] theorem setLatches_beepReq (h : Bool) (c : BitVec 3) (a : Addr) (w : Word) : (s.setLatches h c a w).beepReq = s.beepReq := rfl
@[simp] theorem setLatches_rndIndex (h : Bool) (c : BitVec 3) (a : Addr) (w : Word) : (s.setLatches h c a w).rndIndex = s.rndIndex := rfl
@[simp] theorem setLatches_schedule (h : Bool) (c : BitVec 3) (a : Addr) (w : Word) : (s.setLatches h c a w).schedule = s.schedule := rfl

/-! ### setRndIndex -/

@[simp] theorem setRndIndex_V (n : Nat) : (s.setRndIndex n).V = s.V := rfl
@[simp] theorem setRndIndex_I (n : Nat) : (s.setRndIndex n).I = s.I := rfl
@[simp] theorem setRndIndex_pc (n : Nat) : (s.setRndIndex n).pc = s.pc := rfl
@[simp] theorem setRndIndex_stack (n : Nat) : (s.setRndIndex n).stack = s.stack := rfl
@[simp] theorem setRndIndex_sp (n : Nat) : (s.setRndIndex n).sp = s.sp := rfl
@[simp] theorem setRndIndex_delay (n : Nat) : (s.setRndIndex n).delay = s.delay := rfl
@[simp] theorem setRndIndex_sound (n : Nat) : (s.setRndIndex n).sound = s.sound := rfl
@[simp] theorem setRndIndex_keypad (n : Nat) : (s.setRndIndex n).keypad = s.keypad := rfl
@[simp] theorem setRndIndex_screen (n : Nat) : (s.setRndIndex n).screen = s.screen := rfl
@[simp] theorem setRndIndex_memory (n : Nat) : (s.setRndIndex n).memory = s.memory := rfl
@[simp] theorem setRndIndex_dtFresh (n : Nat) : (s.setRndIndex n).dtFresh = s.dtFresh := rfl
@[simp] theorem setRndIndex_halted (n : Nat) : (s.setRndIndex n).halted = s.halted := rfl
@[simp] theorem setRndIndex_faultCode (n : Nat) : (s.setRndIndex n).faultCode = s.faultCode := rfl
@[simp] theorem setRndIndex_faultPc (n : Nat) : (s.setRndIndex n).faultPc = s.faultPc := rfl
@[simp] theorem setRndIndex_faultWord (n : Nat) : (s.setRndIndex n).faultWord = s.faultWord := rfl
@[simp] theorem setRndIndex_beepReq (n : Nat) : (s.setRndIndex n).beepReq = s.beepReq := rfl
@[simp] theorem setRndIndex_rndIndex (n : Nat) : (s.setRndIndex n).rndIndex = n := rfl
@[simp] theorem setRndIndex_schedule (n : Nat) : (s.setRndIndex n).schedule = s.schedule := rfl

/-! ### setSchedule -/

@[simp] theorem setSchedule_V (es : List Event) : (s.setSchedule es).V = s.V := rfl
@[simp] theorem setSchedule_I (es : List Event) : (s.setSchedule es).I = s.I := rfl
@[simp] theorem setSchedule_pc (es : List Event) : (s.setSchedule es).pc = s.pc := rfl
@[simp] theorem setSchedule_stack (es : List Event) : (s.setSchedule es).stack = s.stack := rfl
@[simp] theorem setSchedule_sp (es : List Event) : (s.setSchedule es).sp = s.sp := rfl
@[simp] theorem setSchedule_delay (es : List Event) : (s.setSchedule es).delay = s.delay := rfl
@[simp] theorem setSchedule_sound (es : List Event) : (s.setSchedule es).sound = s.sound := rfl
@[simp] theorem setSchedule_keypad (es : List Event) : (s.setSchedule es).keypad = s.keypad := rfl
@[simp] theorem setSchedule_screen (es : List Event) : (s.setSchedule es).screen = s.screen := rfl
@[simp] theorem setSchedule_memory (es : List Event) : (s.setSchedule es).memory = s.memory := rfl
@[simp] theorem setSchedule_dtFresh (es : List Event) : (s.setSchedule es).dtFresh = s.dtFresh := rfl
@[simp] theorem setSchedule_halted (es : List Event) : (s.setSchedule es).halted = s.halted := rfl
@[simp] theorem setSchedule_faultCode (es : List Event) : (s.setSchedule es).faultCode = s.faultCode := rfl
@[simp] theorem setSchedule_faultPc (es : List Event) : (s.setSchedule es).faultPc = s.faultPc := rfl
@[simp] theorem setSchedule_faultWord (es : List Event) : (s.setSchedule es).faultWord = s.faultWord := rfl
@[simp] theorem setSchedule_beepReq (es : List Event) : (s.setSchedule es).beepReq = s.beepReq := rfl
@[simp] theorem setSchedule_rndIndex (es : List Event) : (s.setSchedule es).rndIndex = s.rndIndex := rfl
@[simp] theorem setSchedule_schedule (es : List Event) : (s.setSchedule es).schedule = es := rfl

end Sys2Proof.Machine.State
end

