-- ==== Sys2Proof/Laws/Ops.lean ====
section
/-! SUPPORT. One lemma per shared operation that says what it does: the program counter, registers, bytes, stack, fatal
conditions, the register runs, pixels, and what a step can answer. Provers cite these and unfold no operation. -/

namespace Sys2Proof.Machine

/-! ### Program counter and addresses -/

@[simp] theorem nextPc_toNat (pc : Word) : (nextPc pc).toNat = (pc.toNat + 2) % 0x1000 := by
  have h2 : (2#16).toNat = 2 := rfl
  have hm : (0x1000#16).toNat = 0x1000 := rfl
  rw [nextPc, BitVec.toNat_umod, BitVec.toNat_add, h2, hm]; omega

@[simp] theorem prevPc_toNat (pc : Word) : (prevPc pc).toNat = (pc.toNat + 0xFFE) % 0x1000 := by
  have := pc.isLt
  have h2 : (2#16).toNat = 2 := rfl
  have hm : (0x1000#16).toNat = 0x1000 := rfl
  rw [prevPc, BitVec.toNat_umod, BitVec.toNat_sub, h2, hm]; omega

/-- Undoing the fetch advance gives the address of the instruction (R153, R165). -/
theorem prevPc_nextPc_toNat (pc : Word) : (prevPc (nextPc pc)).toNat = pc.toNat % 0x1000 := by
  rw [prevPc_toNat, nextPc_toNat]; omega

theorem skipIf_eq (s : State) (c : Bool) : s.skipIf c = s.setPc (if c then nextPc s.pc else s.pc) := by
  cases c <;> rfl

@[simp] theorem advance_eq (s : State) : s.advance = s.setPc (nextPc s.pc) := rfl

/-- Inside an instruction the address of the instruction is the one fetched from (R82, R165). -/
theorem instrAddr_advance (s : State) : s.advance.instrAddr = s.fetchAddr := by
  apply BitVec.eq_of_toNat_eq
  simp only [State.instrAddr, State.fetchAddr, advance_eq, State.setPc_pc, BitVec.toNat_setWidth, prevPc_nextPc_toNat]
  omega

@[simp] theorem ea_toNat (base : Word) (k : Nat) : (ea base k).toNat = (base.toNat + k) % 0x1000 := by
  simp [ea]

@[simp] theorem zext16_toNat (nnn : Addr) : (zext16 nnn).toNat = nnn.toNat := by
  have := nnn.isLt
  simp only [zext16, BitVec.toNat_setWidth]; omega

@[simp] theorem indexPlus_toNat (i : Word) (n : Nat) : (indexPlus i n).toNat = (i.toNat + n) % 0x1000 := by
  simp only [indexPlus, BitVec.toNat_ofNat, Config.memSize]; omega

@[simp] theorem indexedTarget_toNat (nnn : Addr) (b : Byte) :
    (indexedTarget nnn b).toNat = (nnn.toNat + b.toNat) % 0x1000 := by
  simp only [indexedTarget, BitVec.toNat_ofNat, Config.memSize]; omega

@[simp] theorem glyphAddress_toNat (b : Byte) : (glyphAddress b).toNat = b.toNat * 5 := by
  have := b.isLt
  simp only [glyphAddress, BitVec.toNat_ofNat]; omega

/-! ### Registers and bytes -/

theorem getElem_writeV (s : State) (x r : RegIdx) (b : Byte) :
    (s.writeV x b).V[r] = if r = x then b else s.V[r] := by
  by_cases h : r = x
  · subst h; simp
  · have : x.val ≠ r.val := fun e => h (Fin.ext e.symm)
    simp [h, this]

theorem getElem_writeResultFlag (s : State) (x r : RegIdx) (b : Byte) (c : Bool) :
    (s.writeResultFlag x b c).V[r] = if r = vF then flagByte c else if r = x then b else s.V[r] := by
  rw [State.writeResultFlag, State.writeFlag, getElem_writeV, getElem_writeV]

theorem writeByte_eq (s : State) (a : Addr) (v : Byte) : s.writeByte a v = s.setMemory (s.memory.write a v) := rfl

theorem readByte_writeByte (s : State) (a b : Addr) (v : Byte) :
    (s.writeByte a v).readByte b = if b = a then v else s.readByte b := Memory.read_write _ _ _ _

/-! ### Results, flags and operand forms -/

theorem writeFlag_eq (s : State) (c : Bool) : s.writeFlag c = s.writeV vF (flagByte c) := rfl

theorem writeResultFlag_eq (s : State) (x : RegIdx) (r : Byte) (c : Bool) :
    s.writeResultFlag x r c = (s.writeV x r).writeV vF (flagByte c) := rfl

@[simp] theorem flagByte_toNat (c : Bool) : (flagByte c).toNat = if c then 1 else 0 := by cases c <;> rfl

@[simp] theorem sum8_toNat (a b : Byte) : (sum8 a b).toNat = (a.toNat + b.toNat) % 256 := by
  simp only [sum8, BitVec.toNat_ofNat]; omega

theorem diff8_toNat (a b : Byte) : ((diff8 a b).toNat : Int) = ((a.toNat : Int) - b.toNat) % 256 := by
  simp only [diff8, BitVec.toNat_ofNat]; omega

@[simp] theorem shiftRight1_toNat (b : Byte) : (shiftRight1 b).toNat = b.toNat / 2 := by
  have := b.isLt
  simp only [shiftRight1, BitVec.toNat_ofNat]; omega

@[simp] theorem shiftLeft1_toNat (b : Byte) : (shiftLeft1 b).toNat = 2 * b.toNat % 256 := by
  simp only [shiftLeft1, BitVec.toNat_ofNat]; omega

theorem flagByte_bitOutRight_toNat (b : Byte) : (flagByte (bitOutRight b)).toNat = b.toNat % 2 := by
  revert b; decide

theorem flagByte_bitOutLeft_toNat (b : Byte) : (flagByte (bitOutLeft b)).toNat = b.toNat / 128 := by
  revert b; decide

/-- The low four bits of a byte as a number (R150). -/
theorem keyIndex_eq (b : Byte) : keyIndex b = b.toNat % 16 := by revert b; decide

theorem hundreds_toNat (b : Byte) : (hundreds b).toNat = b.toNat / 100 := by
  have := b.isLt
  simp only [hundreds, BitVec.toNat_ofNat]; omega

theorem tens_toNat (b : Byte) : (tens b).toNat = b.toNat / 10 % 10 := by
  simp only [tens, BitVec.toNat_ofNat]; omega

theorem ones_toNat (b : Byte) : (ones b).toNat = b.toNat % 10 := by
  simp only [ones, BitVec.toNat_ofNat]; omega

/-- The lowest key down, where one is (R153). -/
theorem lowestKey_spec {k : BitVec 16} (h : k ≠ 0) :
    lowestKey k < 16 ∧ keyDown k (lowestKey k) = true ∧ ∀ j < lowestKey k, keyDown k j = false := by
  obtain ⟨n, hn⟩ : ∃ n, (List.range 16).find? (fun k' => keyDown k k') = some n := by
    rw [← Option.isSome_iff_exists, List.find?_isSome]
    by_contra hc
    refine h (BitVec.eq_of_getLsbD_eq fun i hi => ?_)
    have := fun hk => hc ⟨i, List.mem_range.mpr hi, hk⟩
    simpa [keyDown] using this
  have hl : lowestKey k = n := by simp [lowestKey, hn]
  rw [hl]
  obtain ⟨hp, hm, hb⟩ := List.find?_range_eq_some.mp hn
  exact ⟨List.mem_range.mp hm, hp, fun j hj => by simpa using hb j hj⟩

/-- A word made of two bytes as a number (R41). -/
theorem wordOfBytes_toNat (hi lo : Byte) : (wordOfBytes hi lo).toNat = hi.toNat * 256 + lo.toNat := by
  have hlo := lo.isLt
  have : (wordOfBytes hi lo).toNat = hi.toNat <<< 8 ||| lo.toNat := BitVec.toNat_append hi lo
  rw [this, ← Nat.shiftLeft_add_eq_or_of_lt hlo, Nat.shiftLeft_eq]

/-! ### Fatal conditions -/

theorem raise_eq (f : Fault) (w : Word) (s : State) : raise f w s = s.setLatches true f.code s.instrAddr w := rfl

theorem Fault.code_ne_zero (f : Fault) : f.code ≠ 0 := by cases f <;> decide

theorem Fault.ofCode_code (f : Fault) : Fault.ofCode f.code = some f := by cases f <;> rfl

/-! ### Stack -/

/-- Everything `push` can do (R17). -/
theorem push_cases (v : Word) (s : State) :
    (∃ h : s.sp.val < 16, push v s = .ok (s.setStack (s.stack.set s.sp.val v h) ⟨s.sp.val + 1, by omega⟩)) ∨
    (s.sp.val = 16 ∧ push v s = .error .stackOverflow) := by
  by_cases h : s.sp.val < 16
  · exact .inl ⟨h, by simp [push, h]⟩
  · exact .inr ⟨by omega, by simp [push, h]⟩

/-- Everything `pop` can do (R18). -/
theorem pop_cases (s : State) :
    (∃ h : 0 < s.sp.val, pop s =
      .ok (s.stack[s.sp.val - 1]'(by omega), s.setStack s.stack ⟨s.sp.val - 1, by omega⟩)) ∨
    (s.sp.val = 0 ∧ pop s = .error .stackUnderflow) := by
  by_cases h : 0 < s.sp.val
  · exact .inl ⟨h, by simp [pop, h]⟩
  · exact .inr ⟨by omega, by simp [pop, h]⟩

/-! ### The register runs of FX55 and FX65 -/

theorem ea_inj {base : Word} {j k : Nat} (hj : j < 16) (hk : k < 16) (h : ea base j = ea base k) : j = k := by
  have := congrArg BitVec.toNat h
  simp only [ea_toNat] at this
  omega

theorem storeRegs_other (V : Vector Byte 16) (base : Word) (n : Nat) (m : Memory) (a : Addr)
    (h : ∀ k < n, a ≠ ea base k) : (storeRegs V base n m).read a = m.read a := by
  induction n with
  | zero => rfl
  | succ n ih =>
    rw [storeRegs, Memory.read_write_other _ _ (h n (by omega)), ih (fun k hk => h k (by omega))]

theorem storeRegs_read (V : Vector Byte 16) (base : Word) (n : Nat) (hn : n ≤ 16) (m : Memory) (k : Nat) (hk : k < n) :
    (storeRegs V base n m).read (ea base k) = V[k]'(by omega) := by
  induction n with
  | zero => omega
  | succ n ih =>
    rw [storeRegs]
    by_cases e : k = n
    · subst e
      have : k % 16 = k := Nat.mod_eq_of_lt (by omega)
      rw [Memory.read_write_self]; simp [this]
    · rw [Memory.read_write_other _ _ (fun he => e (ea_inj (by omega) (by omega) he))]
      exact ih (by omega) (by omega)

theorem loadRegs_getElem (m : Memory) (base : Word) (n : Nat) (hn : n ≤ 16) (V : Vector Byte 16) (r : Nat) (hr : r < 16) :
    (loadRegs m base n V)[r] = if r < n then m.read (ea base r) else V[r] := by
  induction n with
  | zero => simp [loadRegs]
  | succ n ih =>
    have hv : (Fin.ofNat 16 n).val = n := Nat.mod_eq_of_lt (by omega)
    by_cases e : n = r
    · subst e; simp [loadRegs, Nat.mod_eq_of_lt hr]
    · rw [loadRegs, Vector.getElem_set_ne _ _ (by rw [hv]; exact e), ih (by omega)]
      have : r < n ↔ r < n + 1 := by omega
      simp [this]

theorem storeRegs_wf {V : Vector Byte 16} {base : Word} {n : Nat} {m : Memory} (h : m.wf) :
    (storeRegs V base n m).wf := by
  induction n with
  | zero => exact h
  | succ n ih => exact Memory.write_wf ih _ _

/-! ### Pixels -/

theorem columnBit_getMsbD {x c : Nat} (hx : x < 64) (hc : c < 64) : (columnBit x).getMsbD c = decide (c = x) := by
  simp only [columnBit, BitVec.getMsbD_eq_getLsbD, BitVec.getLsbD_shiftLeft, BitVec.getLsbD_one]
  by_cases h : c = x
  · subst h; simp [hc]; omega
  · simp [h, hc]; omega

theorem Screen.pixel_toggle (scr : Screen) {x y c r : Nat} (hx : x < 64) (hy : y < 32) (hc : c < 64) :
    (scr.toggle x y).pixel c r = (scr.pixel c r ^^ (decide (c = x) && decide (r = y))) := by
  unfold Screen.toggle Screen.pixel
  by_cases hr : r < 32
  · by_cases e : y = r
    · subst e; simp [hy, columnBit_getMsbD hx hc]
    · simp [hr, hy, Vector.getElem_set_ne _ _ e, Ne.symm e]
  · have : r ≠ y := by omega
    simp [hr, this]

/-! ### What a step can answer -/

/-- Everything an instruction can do to the halt latch (R91, R93, R90, R165): it leaves the latches alone, or it is one of
three instructions under its own condition and raises that fault, its word the fault word. -/
theorem exec_halt_cases {i : Instr} {s t : State} (h : exec i s = .next t) :
    (t.halted = s.halted ∧ t.faultCode = s.faultCode ∧ t.faultPc = s.faultPc ∧ t.faultWord = s.faultWord ∧
      (∀ n, i ≠ .op0NNN n) ∧ (i = .op00EE → s.sp.val ≠ 0) ∧ (∀ n, i = .op2NNN n → s.sp.val ≠ 16)) ∨
    (∃ f, t = raise f (encode i) s ∧
      ((f = .unsupportedMachineCall ∧ ∃ n, i = .op0NNN n) ∨ (f = .stackUnderflow ∧ i = .op00EE ∧ s.sp.val = 0) ∨
       (f = .stackOverflow ∧ (∃ n, i = .op2NNN n) ∧ s.sp.val = 16))) := by
  cases i
  case op0NNN n => simp [exec, exec0NNN] at h; subst h; exact .inr ⟨_, rfl, .inl ⟨rfl, _, rfl⟩⟩
  case op00EE =>
    rcases pop_cases s with ⟨h', e⟩ | ⟨h', e⟩ <;> simp [exec, exec00EE, e] at h <;> subst h
    · left; simp; intro e; simp [e] at h'
    · right; exact ⟨_, rfl, .inr (.inl ⟨rfl, rfl, h'⟩)⟩
  case op2NNN nnn =>
    rcases push_cases s.pc s with ⟨h', e⟩ | ⟨h', e⟩ <;> simp [exec, exec2NNN, e] at h <;> subst h
    · left; simp; omega
    · right; exact ⟨_, rfl, .inr (.inr ⟨rfl, ⟨_, rfl⟩, h'⟩)⟩
  case opFX0A x =>
    simp only [exec, execFX0A] at h; split at h <;> cases h <;> simp
  all_goals
    (simp only [exec] at h; cases h
     simp [skipIf_eq, writeResultFlag_eq, writeFlag_eq, writeByte_eq, maskedRandom])

/-- The `Step` event, case by case (R80): halted, an illegal word, or the instruction of the word fetched. -/
theorem stepEvent_cases (s : State) :
    (s.halted = true ∧ stepEvent s = .next s) ∨
    (s.halted = false ∧ ∃ i, decodeWord s.fetchWord = .ok i ∧ stepEvent s = endStep s.delay (exec i s.advance)) ∨
    (s.halted = false ∧ ∃ e, decodeWord s.fetchWord = .error e ∧
      stepEvent s = .next (raiseAt .illegalOpcode s.fetchAddr s.fetchWord s.advance)) := by
  unfold stepEvent
  cases hh : s.halted
  · cases hd : decodeWord s.fetchWord with
    | ok i => exact .inr (.inl ⟨rfl, i, rfl, by simp⟩)
    | error e => exact .inr (.inr ⟨rfl, e, rfl, by simp⟩)
  · exact .inl ⟨rfl, by simp⟩

end Sys2Proof.Machine
end

