-- ==== Sys2Proof/Laws/PerInstr.lean ====
section
/-! SUPPORT. Family RoundTrip, one lemma per instruction: decoding the word of a well-formed instruction gives the
instruction back, with every operand at every value (30_encoding.md R61, R70). -/

namespace Sys2Proof.Laws.RoundTrip

/-- Decoding what `encode` writes gives the instruction back. -/
def Statement (i : Instr) : Prop := i.wellFormed = true → decodeWord (encode i) = .ok i

theorem op00E0 : Statement .op00E0 := fun _ => rfl
theorem op00EE : Statement .op00EE := fun _ => rfl
theorem op0NNN (nnn : Addr) : Statement (.op0NNN nnn) := by
  intro h
  have h0 : fieldNNN (encode (.op0NNN nnn)) = nnn := fieldNNN_encodeA _ _
  have h1 : nnn ≠ 0x0E0#12 := by rintro rfl; exact absurd h (by decide)
  have h2 : nnn ≠ 0x0EE#12 := by rintro rfl; exact absurd h (by decide)
  have h3 : encode (.op0NNN nnn) ≠ 0x00E0#16 := fun e => h1 (by rw [← h0, e]; rfl)
  have h4 : encode (.op0NNN nnn) ≠ 0x00EE#16 := fun e => h2 (by rw [← h0, e]; rfl)
  have h5 : fieldOP (encode (.op0NNN nnn)) = 0x0#4 := fieldOP_encodeA _ _
  simp only [decodeWord, h5, decodeFamily0, h3, h4, if_false, h0]
  rfl
theorem op1NNN (nnn : Addr) : Statement (.op1NNN nnn) := by
  intro _; simp [decodeWord, encode]
theorem op2NNN (nnn : Addr) : Statement (.op2NNN nnn) := by
  intro _; simp [decodeWord, encode]
theorem op3XNN (x : RegIdx) (nn : Byte) : Statement (.op3XNN x nn) := by
  intro _; simp [decodeWord, encode]
theorem op4XNN (x : RegIdx) (nn : Byte) : Statement (.op4XNN x nn) := by
  intro _; simp [decodeWord, encode]
theorem op5XY0 (x : RegIdx) (y : RegIdx) (u : BitVec 4) : Statement (.op5XY0 x y u) := by
  intro _; simp [decodeWord, encode]
theorem op6XNN (x : RegIdx) (nn : Byte) : Statement (.op6XNN x nn) := by
  intro _; simp [decodeWord, encode]
theorem op7XNN (x : RegIdx) (nn : Byte) : Statement (.op7XNN x nn) := by
  intro _; simp [decodeWord, encode]
theorem op8XY0 (x : RegIdx) (y : RegIdx) : Statement (.op8XY0 x y) := by
  intro _; simp [decodeWord, encode, decodeFamily8]
theorem op8XY1 (x : RegIdx) (y : RegIdx) : Statement (.op8XY1 x y) := by
  intro _; simp [decodeWord, encode, decodeFamily8]
theorem op8XY2 (x : RegIdx) (y : RegIdx) : Statement (.op8XY2 x y) := by
  intro _; simp [decodeWord, encode, decodeFamily8]
theorem op8XY3 (x : RegIdx) (y : RegIdx) : Statement (.op8XY3 x y) := by
  intro _; simp [decodeWord, encode, decodeFamily8]
theorem op8XY4 (x : RegIdx) (y : RegIdx) : Statement (.op8XY4 x y) := by
  intro _; simp [decodeWord, encode, decodeFamily8]
theorem op8XY5 (x : RegIdx) (y : RegIdx) : Statement (.op8XY5 x y) := by
  intro _; simp [decodeWord, encode, decodeFamily8]
theorem op8XY6 (x : RegIdx) (y : RegIdx) : Statement (.op8XY6 x y) := by
  intro _; simp [decodeWord, encode, decodeFamily8]
theorem op8XY7 (x : RegIdx) (y : RegIdx) : Statement (.op8XY7 x y) := by
  intro _; simp [decodeWord, encode, decodeFamily8]
theorem op8XYE (x : RegIdx) (y : RegIdx) : Statement (.op8XYE x y) := by
  intro _; simp [decodeWord, encode, decodeFamily8]
theorem op9XY0 (x : RegIdx) (y : RegIdx) (u : BitVec 4) : Statement (.op9XY0 x y u) := by
  intro _; simp [decodeWord, encode]
theorem opANNN (nnn : Addr) : Statement (.opANNN nnn) := by
  intro _; simp [decodeWord, encode]
theorem opBNNN (nnn : Addr) : Statement (.opBNNN nnn) := by
  intro _; simp [decodeWord, encode]
theorem opCXNN (x : RegIdx) (nn : Byte) : Statement (.opCXNN x nn) := by
  intro _; simp [decodeWord, encode]
theorem opDXYN (x : RegIdx) (y : RegIdx) (n : BitVec 4) : Statement (.opDXYN x y n) := by
  intro _; simp [decodeWord, encode]
theorem opEX9E (x : RegIdx) : Statement (.opEX9E x) := by
  intro _; simp [decodeWord, encode, decodeFamilyE]
theorem opEXA1 (x : RegIdx) : Statement (.opEXA1 x) := by
  intro _; simp [decodeWord, encode, decodeFamilyE]
theorem opFX07 (x : RegIdx) : Statement (.opFX07 x) := by
  intro _; simp [decodeWord, encode, decodeFamilyF]
theorem opFX0A (x : RegIdx) : Statement (.opFX0A x) := by
  intro _; simp [decodeWord, encode, decodeFamilyF]
theorem opFX15 (x : RegIdx) : Statement (.opFX15 x) := by
  intro _; simp [decodeWord, encode, decodeFamilyF]
theorem opFX18 (x : RegIdx) : Statement (.opFX18 x) := by
  intro _; simp [decodeWord, encode, decodeFamilyF]
theorem opFX1E (x : RegIdx) : Statement (.opFX1E x) := by
  intro _; simp [decodeWord, encode, decodeFamilyF]
theorem opFX29 (x : RegIdx) : Statement (.opFX29 x) := by
  intro _; simp [decodeWord, encode, decodeFamilyF]
theorem opFX33 (x : RegIdx) : Statement (.opFX33 x) := by
  intro _; simp [decodeWord, encode, decodeFamilyF]
theorem opFX55 (x : RegIdx) : Statement (.opFX55 x) := by
  intro _; simp [decodeWord, encode, decodeFamilyF]
theorem opFX65 (x : RegIdx) : Statement (.opFX65 x) := by
  intro _; simp [decodeWord, encode, decodeFamilyF]

end Sys2Proof.Laws.RoundTrip
end

