-- ==== Sys2Proof/Tests/Slice0.lean ====
section
/-! SUPPORT. The model's own tests, by evaluation: WellFormed, decoding of words written out from the patterns of
30_encoding.md R70, one step of each instruction on the vectors of 95_test_vectors.md (their ids are named), and for every
statement with hypotheses concrete states and operands that meet them all. -/

open Sys2Proof Sys2Proof.Machine Sys2Proof.Stmt

namespace Sys2Proof.Tests

/-! ### Helpers -/

/-- `s` with the word `w` at address `a`, `pc = a`, and that step next. -/
def placed (s : State) (a w : Nat) : State := (s.setPc (BitVec.ofNat 16 a)).withFetchWord 16 w

/-- The state after one step of the word `w` at `a`. -/
def after (s : State) (a w : Nat) : Option State :=
  match step (placed s a w) with
  | .next t => some t
  | .fault _ => none
  | .refused _ => none

/-- The state after one event. -/
def afterEvent (s : State) (e : Event) : Option State :=
  match step (s.setSchedule [e]) with
  | .next t => some t
  | .fault _ => none
  | .refused _ => none

/-- The reset state with two registers written. -/
def regs (x : RegIdx) (a : Byte) (y : RegIdx) (b : Byte) : State := (State.reset.writeV x a).writeV y b

/-- The reset state with `n` stack entries in use, every entry `v`. -/
def stacked (n : Fin 17) (v : Word) : State := State.reset.setStack (Vector.replicate 16 v) n

/-- `(halted, fault_code, fault_pc, fault_word, pc)`. -/
def latches (s : State) : Bool × BitVec 3 × Addr × Word × Word := (s.halted, s.faultCode, s.faultPc, s.faultWord, s.pc)

/-- A blank screen but for two rows. -/
def screen2 (y : Fin 32) (a : BitVec 64) (z : Fin 32) (b : BitVec 64) : Screen := (Screen.clear.set y a).set z b

/-! ### WellFormed -/

theorem test_wellFormed_refuses_sys_0E0 : (Instr.op0NNN 0x0E0).wellFormed = false := by decide
theorem test_wellFormed_refuses_sys_0EE : (Instr.op0NNN 0x0EE).wellFormed = false := by decide
theorem test_wellFormed_accepts_sys_1E0 : (Instr.op0NNN 0x1E0).wellFormed = true := by decide

/-! ### Decoding, the words written out from R70 -/

theorem test_decode_family0 :
    decodeWord 0b0000000011100000#16 = .ok .op00E0 ∧ decodeWord 0b0000000011101110#16 = .ok .op00EE ∧
    decodeWord 0b0000000011101111#16 = .ok (.op0NNN 0x0EF) ∧ decodeWord 0b0000000111100000#16 = .ok (.op0NNN 0x1E0) := by
  decide

theorem test_decode_jumps :
    decodeWord 0b0001101010110111#16 = .ok (.op1NNN 0xAB7) ∧ decodeWord 0b0010101010110111#16 = .ok (.op2NNN 0xAB7) ∧
    decodeWord 0b1011101010110111#16 = .ok (.opBNNN 0xAB7) := by decide

theorem test_decode_skips :
    decodeWord 0b0011101010110111#16 = .ok (.op3XNN 0xA 0xB7) ∧ decodeWord 0b0100101010110111#16 = .ok (.op4XNN 0xA 0xB7) ∧
    decodeWord 0b0101101010110011#16 = .ok (.op5XY0 0xA 0xB 0x3) ∧
    decodeWord 0b1001101010110111#16 = .ok (.op9XY0 0xA 0xB 0x7) := by decide

theorem test_decode_immediates :
    decodeWord 0b0110101010110111#16 = .ok (.op6XNN 0xA 0xB7) ∧ decodeWord 0b0111101010110111#16 = .ok (.op7XNN 0xA 0xB7) ∧
    decodeWord 0b1010101010110111#16 = .ok (.opANNN 0xAB7) ∧ decodeWord 0b1100101010110111#16 = .ok (.opCXNN 0xA 0xB7) := by
  decide

theorem test_decode_family8 :
    decodeWord 0b1000101010110000#16 = .ok (.op8XY0 0xA 0xB) ∧ decodeWord 0b1000101010110001#16 = .ok (.op8XY1 0xA 0xB) ∧
    decodeWord 0b1000101010110010#16 = .ok (.op8XY2 0xA 0xB) ∧ decodeWord 0b1000101010110011#16 = .ok (.op8XY3 0xA 0xB) ∧
    decodeWord 0b1000101010110100#16 = .ok (.op8XY4 0xA 0xB) ∧ decodeWord 0b1000101010110101#16 = .ok (.op8XY5 0xA 0xB) ∧
    decodeWord 0b1000101010110110#16 = .ok (.op8XY6 0xA 0xB) ∧ decodeWord 0b1000101010110111#16 = .ok (.op8XY7 0xA 0xB) ∧
    decodeWord 0b1000101010111110#16 = .ok (.op8XYE 0xA 0xB) := by decide

theorem test_decode_draw_and_keys :
    decodeWord 0b1101101010110111#16 = .ok (.opDXYN 0xA 0xB 0x7) ∧ decodeWord 0b1110000110011110#16 = .ok (.opEX9E 0x1) ∧
    decodeWord 0b1110000110100001#16 = .ok (.opEXA1 0x1) := by decide

theorem test_decode_familyF :
    decodeWord 0b1111000000000111#16 = .ok (.opFX07 0x0) ∧ decodeWord 0b1111111100001010#16 = .ok (.opFX0A 0xF) ∧
    decodeWord 0b1111000100010101#16 = .ok (.opFX15 0x1) ∧ decodeWord 0b1111001000011000#16 = .ok (.opFX18 0x2) ∧
    decodeWord 0b1111001100011110#16 = .ok (.opFX1E 0x3) ∧ decodeWord 0b1111010000101001#16 = .ok (.opFX29 0x4) ∧
    decodeWord 0b1111010100110011#16 = .ok (.opFX33 0x5) ∧ decodeWord 0b1111011001010101#16 = .ok (.opFX55 0x6) ∧
    decodeWord 0b1111011101100101#16 = .ok (.opFX65 0x7) := by decide

/-- The illegal words of the table of 95_test_vectors.md section 2. -/
theorem test_decode_gaps :
    [0x8AB8, 0x8AB9, 0x8ABD, 0x8ABF, 0xE19F, 0xE1A2, 0xE000, 0xF000, 0xF066, 0xF075, 0xF11F, 0xF0FF, 0xF030].all
      (fun w => decide (decodeTableWord 16 w = none)) = true := by decide

theorem test_decode_needs_two_bytes :
    decodeBytes [0x00] = .error .truncated ∧ decodeBytes [0xDA, 0xB7, 0x01] = .ok (.opDXYN 0xA 0xB 0x7, [0x01]) := by decide

/-! ### The font (R47) and the image (R48) -/

theorem test_font_ends :
    State.reset.readByte 0x000 = 0xF0 ∧ State.reset.readByte 0x005 = 0x20 ∧ State.reset.readByte 0x04B = 0xF0 ∧
    State.reset.readByte 0x04F = 0x80 ∧ State.reset.readByte 0x050 = 0x00 := by decide

theorem test_image_bytes :
    (afterEvent State.reset (.reset [0x60, 0x05])).map
      (fun t => (t.readByte 0x1FF, t.readByte 0x200, t.readByte 0x201, t.readByte 0x202, t.readByte 0x04F, t.pc)) =
      some (0x00, 0x60, 0x05, 0x00, 0x80, 0x200) := by decide

/-! ### Fetch (vectors D1, D2) -/

theorem test_fetch_wraps_D1 :
    ((State.reset.writeByte 0xFFF 0x12).setPc 0xFFF).fetchWord = 0x12F0 := by decide
theorem test_fetch_odd_D2 :
    (after State.reset 0x201 0x6A42).map (fun t => (t.V[0xA], t.pc)) = some (0x42, 0x203) := by decide

/-! ### Control transfer (vectors CF) -/

theorem test_ret_CF1 : (after (stacked 1 0x202) 0x300 0x00EE).map (fun t => (t.pc, t.sp)) = some (0x202, 0) := by decide
theorem test_ret_CF2 :
    (after State.reset 0x300 0x00EE).map (fun t => (latches t, t.sp)) = some ((true, 2, 0x300, 0x00EE, 0x302), 0) := by decide
theorem test_sys_CF4 :
    (after (State.reset.setScreen (Screen.clear.toggle 0 0)) 0x200 0x01E0).map (fun t => (latches t, t.screen.pixel 0 0)) =
      some ((true, 1, 0x200, 0x01E0, 0x202), true) := by decide
theorem test_jump_CF6 : (after State.reset 0x200 0x1FFF).map (·.pc) = some 0xFFF := by decide
theorem test_call_CF8 :
    (after State.reset 0xFFE 0x2FFE).map (fun t => (t.stack[0], t.sp, t.pc)) = some (0x000, 1, 0xFFE) := by decide
theorem test_call_CF10 :
    (after (stacked 16 0x111) 0x240 0x2300).map (fun t => (latches t, t.sp, t.stack)) =
      some ((true, 4, 0x240, 0x2300, 0x242), 16, Vector.replicate 16 0x111) := by decide
theorem test_skip_CF11 : (after (regs 0 0x05 1 0) 0xFFE 0x3005).map (·.pc) = some 0x002 := by decide
theorem test_noSkip_CF12 : (after (regs 0 0x04 1 0) 0xFFE 0x3005).map (·.pc) = some 0x000 := by decide
theorem test_skip_CF13 : (after (regs 3 0x10 1 0) 0x200 0x4311).map (·.pc) = some 0x204 := by decide
theorem test_noSkip_CF14 : (after (regs 3 0x10 1 0) 0x200 0x4310).map (·.pc) = some 0x202 := by decide
theorem test_skip_CF16 : (after (regs 1 0x07 2 0x07) 0x200 0x5121).map (·.pc) = some 0x204 := by decide
theorem test_noSkip_CF17 : (after (regs 1 0x07 2 0x08) 0x200 0x5120).map (·.pc) = some 0x202 := by decide
theorem test_noSkip_CF18 : (after (regs 4 0x01 1 0) 0x200 0x9440).map (·.pc) = some 0x202 := by decide
theorem test_skip_CF19 : (after (regs 0xA 0x01 0xB 0x02) 0x200 0x9AB7).map (·.pc) = some 0x204 := by decide
theorem test_indexedJump_CF20 :
    (after ((regs 0 0x02 1 0).setI 0x123) 0x200 0xBFFF).map (fun t => (t.pc, t.I)) = some (0x001, 0x123) := by decide
theorem test_indexedJump_CF22 : (after (regs 0 0x04 3 0x50) 0x200 0xB300).map (·.pc) = some 0x304 := by decide

/-! ### Registers (vectors A) -/

theorem test_load_A1 : (after State.reset 0x200 0x6F07).map (fun t => (t.V[vF], t.pc)) = some (0x07, 0x202) := by decide
theorem test_addImm_A2 :
    (after (regs 0 0xFF vF 0x01) 0x200 0x7001).map (fun t => (t.V[0], t.V[vF])) = some (0x00, 0x01) := by decide
theorem test_copy_A4 : (after (regs 0xE 0 vF 0x01) 0x200 0x8EF0).map (fun t => t.V[0xE]) = some 0x01 := by decide
theorem test_or_A5 :
    (after ((regs 0 0x0C 1 0x0A).writeV vF 0x01) 0x200 0x8011).map (fun t => (t.V[0], t.V[vF])) = some (0x0E, 0x01) := by
  decide
theorem test_and_A6 :
    (after ((regs 0 0x0C 1 0x0A).writeV vF 0x01) 0x200 0x8012).map (fun t => (t.V[0], t.V[vF])) = some (0x08, 0x01) := by
  decide
theorem test_xor_A7 :
    (after ((regs 0 0x0C 1 0x0A).writeV vF 0x01) 0x200 0x8013).map (fun t => (t.V[0], t.V[vF])) = some (0x06, 0x01) := by
  decide
theorem test_add_A11 :
    (after (regs 0 0xFF 1 0xFF) 0x200 0x8014).map (fun t => (t.V[0], t.V[vF])) = some (0xFE, 0x01) := by decide
theorem test_add_A14 : (after (regs vF 0x10 1 0x20) 0x200 0x8F14).map (fun t => t.V[vF]) = some 0x00 := by decide
theorem test_sub_A18 :
    (after (regs 0 0x01 1 0x02) 0x200 0x8015).map (fun t => (t.V[0], t.V[vF])) = some (0xFF, 0x00) := by decide
theorem test_sub_A21 : (after (regs vF 0x05 1 0x03) 0x200 0x8F15).map (fun t => t.V[vF]) = some 0x01 := by decide
theorem test_shr_A26 :
    (after (regs 0 0xAA 1 0x05) 0x200 0x8016).map (fun t => (t.V[0], t.V[1], t.V[vF])) = some (0x02, 0x05, 0x01) := by decide
theorem test_shr_A28 : (after (regs 0 0 1 0x02) 0x200 0x8F16).map (fun t => t.V[vF]) = some 0x00 := by decide
theorem test_subn_A34 :
    (after (regs 0 0x05 1 0x02) 0x200 0x8017).map (fun t => (t.V[0], t.V[vF])) = some (0xFD, 0x00) := by decide
theorem test_subn_A36 :
    (after (regs 0 0x09 1 0x09) 0x200 0x8017).map (fun t => (t.V[0], t.V[vF])) = some (0x00, 0x01) := by decide
theorem test_shl_A37 :
    (after (regs 0 0 1 0x81) 0x200 0x801E).map (fun t => (t.V[0], t.V[1], t.V[vF])) = some (0x02, 0x81, 0x01) := by decide
theorem test_shl_A39 : (after (regs 0 0 1 0x40) 0x200 0x8F1E).map (fun t => t.V[vF]) = some 0x00 := by decide
/-- The byte is free in the machine (log entry 1); here it is given. -/
theorem test_random_A44 : (maskedRandom 0xB7 0 0x0F State.reset).V[0] = 0x07 := by decide
theorem test_random_counts : (after State.reset 0x200 0xC00F).map (fun t => (t.rndIndex, t.pc)) = some (1, 0x202) := by decide
theorem test_illegal_A42 :
    (after State.reset 0x200 0x801F).map latches = some (true, 3, 0x200, 0x801F, 0x202) := by decide

/-! ### Index register and memory (vectors M) -/

theorem test_loadIndex_M1 : (after State.reset 0x200 0xAFFF).map (·.I) = some 0xFFF := by decide
theorem test_addIndex_M3 :
    (after ((regs 0 0xFF vF 0x01).setI 0xF00) 0x200 0xF01E).map (fun t => (t.I, t.V[vF])) = some (0xFFF, 0x00) := by decide
theorem test_addIndex_M4 :
    (after ((regs 0 0 vF 0x01).setI 0xFFF) 0x200 0xFF1E).map (fun t => (t.I, t.V[vF])) = some (0x000, 0x01) := by decide
theorem test_glyph_M10 : (after (regs 0 0xFF 1 0) 0x200 0xF029).map (·.I) = some 0x4FB := by decide
theorem test_bcd_M11 :
    (after ((regs 0 0xFF 1 0).setI 0x300) 0x200 0xF033).map
      (fun t => (t.readByte 0x300, t.readByte 0x301, t.readByte 0x302, t.I)) = some (0x02, 0x05, 0x05, 0x300) := by decide
theorem test_bcd_M14 :
    (after ((regs 3 0x9C 1 0).setI 0xFFE) 0x200 0xF333).map
      (fun t => (t.readByte 0xFFE, t.readByte 0xFFF, t.readByte 0x000, t.readByte 0x001)) =
      some (0x01, 0x05, 0x06, 0x90) := by decide
theorem test_store_M15 :
    (after ((regs 0 0x11 1 0x22).setI 0x400) 0x200 0xF055).map (fun t => (t.readByte 0x400, t.readByte 0x401, t.I)) =
      some (0x11, 0x00, 0x401) := by decide
theorem test_store_M17 :
    (after ((((regs 0 0x01 1 0x02).writeV 2 0x03).writeV 3 0x04).setI 0xFFE) 0x200 0xF355).map
      (fun t => (t.readByte 0xFFF, t.readByte 0x000, t.readByte 0x001, t.readByte 0x002, t.I)) =
      some (0x02, 0x03, 0x04, 0x90, 0x002) := by decide
theorem test_loadRegs_M19 :
    (after ((State.reset.writeByte 0xFFF 0x77).setI 0xFFF) 0x200 0xF165).map (fun t => (t.V[0], t.V[1], t.I)) =
      some (0x77, 0xF0, 0x001) := by decide
theorem test_loadRegs_M21 :
    (after (((regs 0 0 1 0x55).writeByte 0x300 0x99).setI 0x300) 0x200 0xF065).map (fun t => (t.V[0], t.V[1], t.I)) =
      some (0x99, 0x55, 0x301) := by decide

/-! ### Display (vectors G; a row has column 0 as bit 63) -/

theorem test_clear_G1 :
    (after ((regs vF 0x01 1 0).setScreen (((Screen.clear.toggle 0 0).toggle 5 5).toggle 63 31)) 0x200 0x00E0).map
      (fun t => (t.screen, t.V[vF])) = some (Screen.clear, 0x01) := by decide
theorem test_draw_G5 :
    (after (((regs 0 0x02 1 0).writeByte 0x300 0x90).setI 0x300 |>.setScreen (screen2 0 0xF000000000000000 1 0)) 0x200
      0xD011).map (fun t => (t.screen, t.V[vF])) = some (screen2 0 0xD400000000000000 1 0, 0x01) := by decide
theorem test_draw_G7 :
    (after (regs 1 0x3E 2 0x1E) 0x200 0xD125).map (fun t => (t.screen, t.V[vF])) =
      some (screen2 30 0x0000000000000003 31 0x0000000000000002, 0x00) := by decide
theorem test_draw_reads_old_VF_G12 :
    (after (((regs vF 0x03 0 0x02).writeByte 0x300 0x80).setI 0x300) 0x200 0xDF01).map
      (fun t => (t.screen.pixel 3 2, t.V[vF])) = some (true, 0x00) := by decide
/-- The masks listed under rule R143 in 95_test_vectors.md section 6. -/
theorem test_row_masks :
    rowMask 0xF0 0 = 0xF000000000000000 ∧ rowMask 0xF0 62 = 0x3 ∧ rowMask 0x90 62 = 0x2 ∧ rowMask 0xFF 60 = 0xF ∧
    rowMask 0x01 56 = 0x1 ∧ rowMask 0xFF 64 = 0x0 := by decide

/-! ### Keypad and timers (vectors K, E) -/

theorem test_skipKey_K3 : (after ((regs 0 0x15 1 0).setKeypad 0x0020) 0x200 0xE09E).map (·.pc) = some 0x204 := by decide
theorem test_skipKey_K2 : (after ((regs 0 0x05 1 0).setKeypad 0xFFDF) 0x200 0xE09E).map (·.pc) = some 0x202 := by decide
theorem test_skipNoKey_K6 : (after (regs 0 0x05 1 0) 0x200 0xE0A1).map (·.pc) = some 0x204 := by decide
theorem test_skipNoKey_K7 : (after ((regs 0 0xFA 1 0).setKeypad 0x0400) 0x200 0xE0A1).map (·.pc) = some 0x202 := by decide
theorem test_waitKey_K15 : (after State.reset 0xFFE 0xF00A).map (·.pc) = some 0xFFE := by decide
theorem test_waitKey_K12 :
    (after ((regs 3 0x09 1 0).setKeypad 0x0090) 0x210 0xF30A).map (fun t => (t.V[3], t.pc)) = some (0x04, 0x212) := by decide
theorem test_readDelay_K19 :
    (after ((regs vF 0x01 1 0).setDelay 0xC8) 0x200 0xFF07).map (fun t => t.V[vF]) = some 0xC8 := by decide
theorem test_setDelay_K20 :
    (after (regs 0 0x02 1 0) 0x200 0xF015).map (fun t => (t.delay, t.dtFresh)) = some (0x02, true) := by decide
theorem test_setDelay_K21 :
    (after ((regs 0 0x05 1 0).setDelay 0x05) 0x200 0xF015).map (fun t => (t.delay, t.dtFresh)) = some (0x05, false) := by
  decide
theorem test_setSound_K24 :
    (after (regs 1 0x1E 0 0) 0x200 0xF118).map (fun t => (t.sound, t.soundActive, t.dtFresh)) = some (0x1E, true, false) := by
  decide
theorem test_tick_floor_E1 :
    (afterEvent State.reset .tick).map (fun t => (t.delay, t.sound, t.beepReq)) = some (0, 0, false) := by decide
theorem test_tick_beeps_E6 :
    (afterEvent ((State.reset.setSound 2).setDelay 1) .tick).map (fun t => (t.delay, t.sound, t.beepReq)) =
      some (0, 1, true) := by decide
theorem test_tick_spares_fresh_E2 :
    (afterEvent ((State.reset.setDelay 1).setDtFresh true) .tick).map (fun t => (t.delay, t.dtFresh)) =
      some (1, false) := by decide

/-! ### Witnesses: the hypotheses of every statement that has some, together -/

/-- R190: the longest image and one byte more. -/
theorem witness_reset_event_too_long :
    (State.reset.setSchedule [.reset (List.replicate 3585 0)]).schedule = .reset (List.replicate 3585 0) :: [] ∧
      3584 < (List.replicate 3585 (0 : Byte)).length := ⟨rfl, by rw [List.length_replicate]; decide⟩
theorem witness_reset_event_longest :
    (State.reset.setSchedule [.reset (List.replicate 3584 0)]).schedule = .reset (List.replicate 3584 0) :: [] ∧
      (List.replicate 3584 (0 : Byte)).length ≤ 3584 := ⟨rfl, by rw [List.length_replicate]⟩
/-- R117 to R121: a destination that is not VF, and the sums on both sides of 255. -/
theorem witness_flag_writers_destination : (0xE : RegIdx) ≠ vF ∧
    (carry 0xFF 0x01, carry 0xFF 0x00, notBorrow 7 7, notBorrow 6 7) = (true, false, true, false) := by decide
/-- R93: a call on an empty stack and on one with a single place left. -/
theorem witness_call : (stacked 0 0).sp.val < 16 ∧ (stacked 15 0x111).sp.val < 16 := by decide
/-- R164. -/
theorem witness_call_full : (stacked 16 0x111).sp.val = 16 := by decide
/-- R90: one entry and sixteen entries. -/
theorem witness_return : (stacked 1 0x202).sp.val = (0 : Fin 16).val + 1 ∧ (stacked 16 0x202).sp.val = (15 : Fin 16).val + 1 := by
  decide
/-- R162. -/
theorem witness_return_empty : State.reset.sp.val = 0 := by decide
/-- R90, R93: a call with one place left, and a return on the stack it leaves. -/
theorem witness_return_undoes_call : ∃ s t u : State, s.sp.val < 16 ∧ exec (.op2NNN 0x300) s = .next t ∧
    u.stack = t.stack ∧ u.sp = t.sp :=
  ⟨stacked 15 0x111, _, _, by decide, rfl, rfl, rfl⟩
/-- R94 to R97: equal and unequal operands. -/
theorem witness_skips : (regs 1 7 2 7).V[(1 : RegIdx)] = 7 ∧ (regs 1 7 2 7).V[(1 : RegIdx)] ≠ 8 ∧
    (regs 1 7 2 7).V[(1 : RegIdx)] = (regs 1 7 2 7).V[(2 : RegIdx)] ∧
    (regs 1 7 2 8).V[(1 : RegIdx)] ≠ (regs 1 7 2 8).V[(2 : RegIdx)] := by decide
/-- R151, R152: the keys 0 and F, down and up. -/
theorem witness_key_skips :
    ((regs 1 0xF0 2 0xFF).setKeypad 0x8001).keypad.getLsbD (((regs 1 0xF0 2 0xFF).V[(1 : RegIdx)]).toNat % 16) = true ∧
    ((regs 1 0xF0 2 0xFF).setKeypad 0x8001).keypad.getLsbD (((regs 1 0xF0 2 0xFF).V[(2 : RegIdx)]).toNat % 16) = true ∧
    ((regs 1 0xF0 2 0xFF).setKeypad 0x7FFE).keypad.getLsbD (((regs 1 0xF0 2 0xFF).V[(1 : RegIdx)]).toNat % 16) = false ∧
    ((regs 1 0xF0 2 0xFF).setKeypad 0x7FFE).keypad.getLsbD (((regs 1 0xF0 2 0xFF).V[(2 : RegIdx)]).toNat % 16) = false := by
  decide
/-- R131: the sums on both sides of 0xFFF. -/
theorem witness_index_overflow : indexOverflow 0xFFF 0x01 = true ∧ indexOverflow 0xF00 0xFF = false := by decide
/-- R134, R135: a store that wraps past 0xFFF and a load from the same `I`. -/
theorem witness_load_after_store : ∃ s t u : State, exec (.opFX55 0xF) s = .next t ∧ u.memory = t.memory ∧ u.I = s.I :=
  ⟨(regs 0 1 1 2).setI 0xFFE, _, (((regs 0 1 1 2).setI 0xFFE).setMemory _), rfl, rfl, rfl⟩
/-- R52: the first and the last pair of registers that a store of all sixteen puts in memory. -/
theorem witness_stored_bytes : ∃ s t : State, (0 : RegIdx).val + 1 ≤ (0xF : RegIdx).val ∧
    (0xE : RegIdx).val + 1 ≤ (0xF : RegIdx).val ∧ exec (.opFX55 0xF) s = .next t :=
  ⟨State.reset, _, by decide, by decide, rfl⟩
/-- R142: coordinates in registers other than VF. -/
theorem witness_draw_twice : ∃ s t : State, (0 : RegIdx) ≠ vF ∧ (0xE : RegIdx) ≠ vF ∧ exec (.opDXYN 0 0xE 0xF) s = .next t :=
  ⟨State.reset, _, by decide, by decide, rfl⟩
/-- R22: the last pixel. -/
theorem witness_flat_screen : (63 : Nat) < 64 ∧ (31 : Fin 32).val < 32 := by decide
/-- R153: no key, the first key, the last key. -/
theorem witness_wait_key : State.reset.keypad = 0 ∧ (State.reset.setKeypad 0x0001).keypad ≠ 0 ∧
    (State.reset.setKeypad 0x8000).keypad ≠ 0 := by decide

/-- The state of vector K15, its `F00A` at 0xFFE, with nothing pending. -/
def waiting : State := (placed State.reset 0xFFE 0xF00A).setSchedule []
/-- R153: the waiting step. -/
theorem witness_waiting_step : waiting.halted = false ∧ waiting.schedule = [] ∧ waiting.pc.toNat ≤ 0xFFF ∧
    waiting.keypad = 0 ∧ decodeWord waiting.fetchWord = .ok (.opFX0A 0) := by decide

/-- The state of vector K20, its `F015` at 0x200, and the events `es` after that step. -/
def raising (es : List Event) : State := (placed (regs 0 0x02 1 0) 0x200 0xF015).setSchedule (.step :: es)
/-- R24: a step that raises `delay`, and one that does not. -/
theorem witness_dt_fresh : ∃ s t : State, s.halted = false ∧ StepIsNext s [] ∧ step s = .next t ∧ t.halted = false ∧
    t.dtFresh = true :=
  ⟨raising [], _, by decide, .inl rfl, rfl, by decide, by decide⟩
theorem witness_dt_not_fresh : ∃ s t : State, s.halted = false ∧ StepIsNext s [] ∧ step s = .next t ∧ t.halted = false ∧
    t.dtFresh = false :=
  ⟨placed State.reset 0x200 0x6005, _, by decide, .inl rfl, rfl, by decide, by decide⟩
/-- R155, R175: one above the old value. -/
theorem witness_raised_delay : ((raising [.tick, .tick]).setDelay 1).halted = false ∧
    ((raising [.tick, .tick]).setDelay 1).schedule = .step :: .tick :: .tick :: [] ∧
    decodeWord ((raising [.tick, .tick]).setDelay 1).fetchWord = .ok (.opFX15 0) ∧
    ((raising [.tick, .tick]).setDelay 1).delay.toNat < (((raising [.tick, .tick]).setDelay 1).V[(0 : RegIdx)]).toNat := by
  decide

/-- A halted state, its latches as vector CF3 leaves them, with the events `es` pending. -/
def stopped (es : List Event) : State := ((State.reset.setLatches true 1 0x200 0x0000).setPc 0x202).setSchedule es
/-- R175, R166: a tick, halted and not. -/
theorem witness_tick : (stopped [.tick]).schedule = .tick :: [] ∧ (stopped [.tick]).halted = true ∧
    (State.reset.setSchedule [.tick]).schedule = .tick :: [] ∧ (State.reset.setSchedule [.tick]).halted = false := by decide
/-- R175: one tick and three. -/
theorem witness_ticks : (State.reset.setSchedule (List.replicate (2 + 1) .tick ++ [])).halted = false ∧
    (State.reset.setSchedule (List.replicate (2 + 1) .tick ++ [])).dtFresh = false ∧
    (State.reset.setSchedule (List.replicate (0 + 1) .tick ++ [])).schedule = List.replicate (0 + 1) .tick ++ [] := by decide
/-- R180: halted and not. -/
theorem witness_set_keys : (stopped [.setKeys 0xFFFF]).schedule = .setKeys 0xFFFF :: [] ∧
    (State.reset.setSchedule [.setKeys 0]).schedule = .setKeys 0 :: [] := by decide
/-- R80: a step with an event pending after it, and one with nothing pending. -/
theorem witness_step_runs : ∃ s t : State, s.halted = false ∧ StepIsNext s [.tick] ∧
    decodeWord (s.memory.fetchWord (BitVec.ofNat 12 s.pc.toNat)) = .ok (.op6XNN 0 0x05) ∧
    exec (.op6XNN 0 0x05) { s with pc := BitVec.ofNat 16 ((s.pc.toNat + 2) % 0x1000), schedule := [.tick] } = .next t :=
  ⟨(placed State.reset 0xFFE 0x6005).setSchedule [.step, .tick], _, by decide, .inl rfl, by decide, rfl⟩
theorem witness_step_runs_unscheduled : StepIsNext waiting [] := .inr ⟨rfl, rfl⟩
/-- R163. -/
theorem witness_illegal_word : (placed State.reset 0x200 0x801F).halted = false ∧
    StepIsNext (placed State.reset 0x200 0x801F) [] ∧
    decodeWord (placed State.reset 0x200 0x801F).fetchWord = .error (.illegalOpcode 0x801F) :=
  ⟨by decide, .inl rfl, by decide⟩
/-- R160: each condition is met in some state, and a step that halts there. -/
theorem witness_fatal_machine_call : Fatal (placed State.reset 0x200 0x0000) .unsupportedMachineCall :=
  ⟨0x000, by decide⟩
theorem witness_fatal_underflow : Fatal (placed State.reset 0x300 0x00EE) .stackUnderflow := ⟨by decide, by decide⟩
theorem witness_fatal_illegal : Fatal (placed State.reset 0x200 0xE000) .illegalOpcode := by
  show decodeWord (placed State.reset 0x200 0xE000).fetchWord = _
  decide
theorem witness_fatal_overflow : Fatal (placed (stacked 16 0x111) 0x240 0x2300) .stackOverflow :=
  ⟨⟨0x300, by decide⟩, by decide⟩
theorem witness_fault_entry : ∃ s t : State, s.halted = false ∧ StepIsNext s [] ∧ step s = .next t ∧ t.halted = true :=
  ⟨placed (stacked 16 0x111) 0xFFE 0x2300, _, by decide, .inl rfl, rfl, by decide⟩
theorem witness_no_fault : ∃ s t : State, s.halted = false ∧ StepIsNext s [] ∧ step s = .next t ∧ t.halted = false :=
  ⟨placed (stacked 15 0x111) 0xFFE 0x2300, _, by decide, .inl rfl, rfl, by decide⟩
/-- R166: a halted state before each event; only the reset gives a state that is not halted. -/
theorem witness_halted : (stopped []).halted = true ∧ (stopped []).schedule = [] ∧
    (stopped [.step]).schedule = .step :: [] ∧ (stopped [.tick]).schedule = .tick :: [] := by decide
theorem witness_halted_reset : ∃ t, (stopped [.reset []]).halted = true ∧ step (stopped [.reset []]) = .next t ∧
    t.halted = false := ⟨_, by decide, rfl, by decide⟩
/-- The hypothesis of `EveryEventAnswersANextState`: nothing pending, and the longest image pending. -/
theorem witness_every_event_answers : ∀ image es, waiting.schedule = .reset image :: es → image.length ≤ 3584 := by
  intro image es h; cases h
theorem witness_every_event_answers_longest : ∀ image es,
    (State.reset.setSchedule [.reset (List.replicate 3584 0)]).schedule = .reset image :: es → image.length ≤ 3584 := by
  intro image es h; cases h; rw [List.length_replicate]
/-- Log entry 5: a placed word, in a state that was halted at the top of memory. -/
theorem witness_placed_word : ∃ t, decodeTableWord 16 0x6005 = some (.op6XNN 0 0x05) ∧
    exec (.op6XNN 0 0x05) { ((stopped []).setPc 0xFFF).withFetchWord 16 0x6005 with
      pc := BitVec.ofNat 16 ((((stopped []).setPc 0xFFF).pc.toNat + 2) % 0x1000)
      schedule := ((stopped []).setPc 0xFFF).schedule } = .next t :=
  ⟨_, by decide, rfl⟩
/-- R61, R62: well-formed instructions next to the two that are not. -/
theorem witness_wellFormed : (Instr.op0NNN 0x0EF).wellFormed = true ∧ (Instr.op0NNN 0xFFF).wellFormed = true ∧
    (Instr.op5XY0 0xF 0xF 0xF).wellFormed = true := by decide
theorem witness_decodes : decodeWord 0xFF65 = .ok (.opFX65 0xF) ∧ decodeWord 0x0000 = .ok (.op0NNN 0) := by decide
/-- R29: the invariant holds in a state with an event pending, which answers. -/
theorem witness_invariant : ∃ s t : State, s.Inv ∧ step s = .next t :=
  ⟨State.reset, _, ⟨by decide, by decide, by decide, by decide, by decide, by decide⟩, rfl⟩
theorem witness_latches_explain : ∃ s t : State, s.LatchesExplain ∧ s.halted = true ∧ step s = .next t :=
  ⟨stopped [.tick], _, fun _ => ⟨by decide, .inl ⟨by decide, 0x000, by decide⟩⟩, by decide, rfl⟩
theorem witness_fresh_delay : ∃ s t : State, (s.dtFresh = true → 0 < s.delay.toNat) ∧ s.dtFresh = true ∧
    step s = .next t :=
  ⟨((State.reset.setDelay 1).setDtFresh true).setSchedule [.tick], _, by decide, by decide, rfl⟩
/-- R28: an instruction that changes a register, and one that changes the stack and `pc`. -/
theorem witness_writes : ∃ s t : State, exec (.op8XY4 0 1) s = .next t ∧ t.V[(0 : RegIdx)] ≠ s.V[(0 : RegIdx)] ∧
    t.V[vF] ≠ s.V[vF] := ⟨regs 0 0xFF 1 0xFF, _, rfl, by decide, by decide⟩
theorem witness_call_writes : ∃ s t : State, exec (.op2NNN 0x300) s = .next t ∧ t.pc ≠ s.pc ∧ t.sp ≠ s.sp :=
  ⟨State.reset, _, rfl, by decide, by decide⟩
theorem witness_flag_writer : ∃ s t : State, WritesFlag (.opFX1E 0xF) ∧ exec (.opFX1E 0xF) s = .next t :=
  ⟨State.reset, _, trivial, rfl⟩
/-- R20, R24, R30: two states that differ only in what no instruction reads. -/
theorem witness_same_view : ∃ s s' t : State, SameView s s' ∧ s ≠ s' ∧ exec (.opFX07 0) s = .next t :=
  ⟨State.reset, (State.reset.setSound 9).setDtFresh true, _, ⟨rfl, rfl, rfl, rfl, rfl, rfl, rfl, rfl, rfl, rfl⟩, by decide,
    rfl⟩

/-- The jump to itself of vector CF7, with the events `es` pending. -/
def ended (es : List Event) : State := (placed State.reset 0x200 0x1200).setSchedule es
/-- R183: each event that is not a reset. -/
theorem witness_finished : ∃ t u v : State,
    ((ended []).finished = true ∧ (ended []).pc.toNat ≤ 0xFFF ∧ step (ended []) = .next t) ∧
    ((ended [.tick]).finished = true ∧ step (ended [.tick]) = .next u) ∧
    ((ended [.setKeys 1]).finished = true ∧ step (ended [.setKeys 1]) = .next v) :=
  ⟨_, _, _, ⟨by decide, by decide, rfl⟩, ⟨by decide, rfl⟩, by decide, rfl⟩
theorem witness_finished_no_reset : ∀ image es, (ended [.tick]).schedule ≠ .reset image :: es := by
  intro image es h; cases h

end Sys2Proof.Tests
end

section
/-! SUPPORT. The fields of a word as numbers (30_encoding.md R61). -/

namespace Sys2Proof

/-- The `m` bits of a word from bit `k` on, as a quotient and a remainder by powers of two. -/
theorem extractLsb'_toNat_eq_div_mod (w : Word) (k m : Nat) :
    (w.extractLsb' k m).toNat = w.toNat / 2 ^ k % 2 ^ m := by
  rw [BitVec.extractLsb'_toNat, Nat.shiftRight_eq_div_pow]

section fields
variable (w : Word)

/-- `OP` is the topmost field: nothing stands above it, so the quotient alone gives it. -/
theorem fieldOP_toNat : (fieldOP w).toNat = w.toNat / 0x1000 := by
  have hlt : w.toNat / 2 ^ 12 < 2 ^ 4 := Nat.div_lt_of_lt_mul w.isLt
  exact (extractLsb'_toNat_eq_div_mod w 12 4).trans (Nat.mod_eq_of_lt hlt)

theorem fieldX_val : (fieldX w).val = w.toNat / 0x100 % 0x10 := extractLsb'_toNat_eq_div_mod w 8 4

theorem fieldY_val : (fieldY w).val = w.toNat / 0x10 % 0x10 := extractLsb'_toNat_eq_div_mod w 4 4

/-! The fields that begin at bit 0 are remainders alone. -/

theorem fieldN_toNat : (fieldN w).toNat = w.toNat % 0x10 := BitVec.extractLsb'_toNat 0 4 w

theorem fieldNN_toNat : (fieldNN w).toNat = w.toNat % 0x100 := BitVec.extractLsb'_toNat 0 8 w

theorem fieldNNN_toNat : (fieldNNN w).toNat = w.toNat % 0x1000 := BitVec.extractLsb'_toNat 0 12 w

end fields

/-- Settles O47, from the number that each field's range of bits stands for. -/
theorem fieldsAreTheSpecsBits : Obligations.FieldsAreTheSpecsBits := fun w =>
  ⟨fieldOP_toNat w, fieldX_val w, fieldY_val w, fieldN_toNat w, fieldNN_toNat w, fieldNNN_toNat w⟩

end Sys2Proof
end

section
/-! SUPPORT. The jumps (41_control_flow.md R92, R98): what setting the program counter leaves unchanged, and where each
jump sets it. -/

namespace Sys2Proof.Machine

/-- The empty `Touched` frame names everything but `pc` (R28), and `setPc` writes nothing else. -/
theorem unchanged_setPc (s : State) (a : Word) : Unchanged {} s (s.setPc a) where
  regs := fun _ _ => rfl
  index := fun _ => State.setPc_I s a
  stack := fun _ => ⟨State.setPc_stack s a, State.setPc_sp s a⟩
  delay := fun _ => State.setPc_delay s a
  sound := fun _ => State.setPc_sound s a
  screen := fun _ => State.setPc_screen s a
  latches := fun _ =>
    ⟨State.setPc_halted s a, State.setPc_faultCode s a, State.setPc_faultPc s a, State.setPc_faultWord s a⟩
  rndIndex := fun _ => State.setPc_rndIndex s a
  bytes := fun _ _ => rfl
  keypad := State.setPc_keypad s a
  dtFresh := State.setPc_dtFresh s a
  beepReq := State.setPc_beepReq s a
  schedule := State.setPc_schedule s a

section jumps
variable (s : State) (nnn : Addr)

theorem exec_op1NNN : exec (.op1NNN nnn) s = .next (s.setPc (zext16 nnn)) := rfl

theorem exec_opBNNN : exec (.opBNNN nnn) s = .next (s.setPc (indexedTarget nnn s.V[(0 : RegIdx)])) := rfl

end jumps

/-- Settles O10: each jump is one `setPc`, to an address whose number `zext16` or `indexedTarget` gives. -/
theorem jumpsSetThePc : Obligations.JumpsSetThePc := fun s nnn =>
  ⟨⟨_, exec_op1NNN s nnn, zext16_toNat nnn, unchanged_setPc s _⟩,
   ⟨_, exec_opBNNN s nnn, indexedTarget_toNat nnn _, unchanged_setPc s _⟩⟩

end Sys2Proof.Machine
end

section
/-! SUPPORT. The index register and the register store (43_index_memory.md R130, R132, R134): how a frame goes on over a
write of `I` or of memory that it allows, and what each instruction writes. -/

namespace Sys2Proof.Machine

/-! ### Frames, one write at a time -/

/-- A state is within every frame of itself (R28). -/
theorem Unchanged.refl (c : Touched) (s : State) : Unchanged c s s where
  regs := fun _ _ => rfl
  index := fun _ => rfl
  stack := fun _ => ⟨rfl, rfl⟩
  delay := fun _ => rfl
  sound := fun _ => rfl
  screen := fun _ => rfl
  latches := fun _ => ⟨rfl, rfl, rfl, rfl⟩
  rndIndex := fun _ => rfl
  bytes := fun _ _ => rfl
  keypad := rfl
  dtFresh := rfl
  beepReq := rfl
  schedule := rfl

section frame
variable {c : Touched} {s t : State}

/-- A frame that lets `I` change holds on after a write of `I`. -/
theorem Unchanged.setI (h : Unchanged c s t) (hI : c.index = true) (a : Word) : Unchanged c s (t.setI a) :=
  { h with index := fun hF => nomatch hI.symm.trans hF }

/-- A frame holds on when memory becomes one whose bytes outside the frame's are still the first state's. -/
theorem Unchanged.setMemory (h : Unchanged c s t) {m : Memory} (hm : ∀ a, a ∉ c.bytes → m.read a = s.readByte a) :
    Unchanged c s (t.setMemory m) :=
  { h with bytes := hm }

end frame

/-! ### What each instruction writes -/

/-- A store of `n` registers changes no byte but those at `EA(0)` to `EA(n-1)` (R134). -/
theorem storeRegs_read_of_notMem (V : Vector Byte 16) (base : Word) {n : Nat} (m : Memory) {a : Addr}
    (ha : a ∉ (List.range n).map (ea base)) : (storeRegs V base n m).read a = m.read a :=
  storeRegs_other V base n m a fun _ hk e => ha (e ▸ List.mem_map_of_mem (List.mem_range.mpr hk))

section instructions
variable (s : State) (x : RegIdx)

theorem exec_opANNN (nnn : Addr) : exec (.opANNN nnn) s = .next (s.setI (zext16 nnn)) := rfl

theorem exec_opFX29 : exec (.opFX29 x) s = .next (s.setI (glyphAddress s.V[x])) := rfl

theorem exec_opFX55 : exec (.opFX55 x) s =
    .next ((s.setMemory (storeRegs s.V s.I (x.val + 1) s.memory)).setI (indexPlus s.I (x.val + 1))) := rfl

theorem unchanged_setI (a : Word) : Unchanged { index := true } s (s.setI a) := (Unchanged.refl _ s).setI rfl a

end instructions

/-- Settles O19: each load is one `setI`, of a word whose number `zext16` or `glyphAddress` gives. -/
theorem indexLoads : Obligations.IndexLoads := fun s x nnn =>
  ⟨⟨_, exec_opANNN s nnn, zext16_toNat nnn, rfl, unchanged_setI s _⟩,
   ⟨_, exec_opFX29 s x, glyphAddress_toNat s.V[x], rfl, unchanged_setI s _⟩⟩

/-- Settles O22: the bytes are those of `storeRegs`, whose addresses for 16 registers or fewer are distinct, and the frame
is carried over the write of memory and then over the write of `I`. -/
theorem registersAreStored : Obligations.RegistersAreStored := by
  intro s x
  have stored (k : RegIdx) (hk : k ≤ x) :
      (storeRegs s.V s.I (x.val + 1) s.memory).read (ea s.I k.val) = s.V[k] :=
    storeRegs_read s.V s.I (x.val + 1) x.isLt s.memory k.val (Nat.lt_succ_of_le hk)
  have frame := (Unchanged.refl { index := true, bytes := (List.range (x.val + 1)).map (ea s.I) } s).setMemory
    fun _ ha => storeRegs_read_of_notMem s.V s.I s.memory ha
  exact ⟨_, exec_opFX55 s x, stored, indexPlus_toNat s.I (x.val + 1), rfl, frame.setI rfl _⟩

end Sys2Proof.Machine
end

section
/-! SUPPORT. The cleared screen (44_display.md R141): its pixels, and the frame over a write of the screen. -/

namespace Sys2Proof.Machine

/-- On the screen a pixel is a bit of a zero row; below the last row `Screen.pixel` answers false for every screen. -/
@[simp] theorem Screen.pixel_clear (x y : Nat) : Screen.clear.pixel x y = false := by
  unfold Screen.pixel
  split
  case isTrue h => rw [Screen.clear, Vector.getElem_replicate]; exact BitVec.getMsbD_zero
  case isFalse => rfl

/-- A frame that lets the screen change holds on after a write of the screen. -/
theorem Unchanged.setScreen {c : Touched} {s t : State} (h : Unchanged c s t) (hS : c.screen = true) (scr : Screen) :
    Unchanged c s (t.setScreen scr) :=
  { h with screen := fun hF => nomatch hS.symm.trans hF }

theorem exec_op00E0 (s : State) : exec .op00E0 s = .next (s.setScreen Screen.clear) := rfl

/-- Settles O27: the instruction is one write of the screen, and the screen written has no lit pixel. -/
theorem clearUnlightsEveryPixel : Obligations.ClearUnlightsEveryPixel := fun s =>
  ⟨_, exec_op00E0 s, fun x _ y _ => Screen.pixel_clear x y, State.setScreen_pc s _,
   (Unchanged.refl _ s).setScreen rfl _⟩

end Sys2Proof.Machine
end

section
/-! SUPPORT. The updates of State as far as frames and later proofs need them: a register read after a write, how a frame
goes on over each update that it allows (10_state.md R28), and the fatal entry (60_exceptions.md R165). -/

open Sys2Proof.Stmt

namespace Sys2Proof.Machine

/-! ### A register read after a write -/

section registers
variable (s : State) (x : RegIdx) (b : Byte) (f : Bool)

theorem getElem_writeV_self : (s.writeV x b).V[x] = b := (getElem_writeV s x x b).trans (if_pos rfl)

theorem getElem_writeV_of_ne {x r : RegIdx} (h : r ≠ x) : (s.writeV x b).V[r] = s.V[r] :=
  (getElem_writeV s x r b).trans (if_neg h)

/-- The flag is in VF, whatever the destination was (R84). -/
theorem writeResultFlag_flag : (s.writeResultFlag x b f).V[vF] = flagByte f :=
  getElem_writeV_self (s.writeV x b) vF (flagByte f)

theorem writeResultFlag_result {x : RegIdx} (h : x ≠ vF) : (s.writeResultFlag x b f).V[x] = b :=
  (getElem_writeV_of_ne (s.writeV x b) (flagByte f) h).trans (getElem_writeV_self s x b)

end registers

/-! ### Frames, one update at a time -/

section frame
variable {c : Touched} {s t : State}

theorem Unchanged.setPc (h : Unchanged c s t) (a : Word) : Unchanged c s (t.setPc a) := { h with }

theorem Unchanged.skipIf (h : Unchanged c s t) (b : Bool) : Unchanged c s (t.skipIf b) := by
  rw [skipIf_eq]; exact h.setPc _

theorem Unchanged.writeV (h : Unchanged c s t) {x : RegIdx} (hx : x ∈ c.regs) (b : Byte) :
    Unchanged c s (t.writeV x b) :=
  { h with
    regs := fun r hr => (getElem_writeV_of_ne t b fun e : r = x => hr (e ▸ hx)).trans (h.regs r hr)
    bytes := h.bytes }

theorem Unchanged.writeResultFlag (h : Unchanged c s t) {x : RegIdx} (hx : x ∈ c.regs) (hF : vF ∈ c.regs) (b : Byte)
    (f : Bool) : Unchanged c s (t.writeResultFlag x b f) :=
  (h.writeV hx b).writeV hF (flagByte f)

theorem Unchanged.setRegs (h : Unchanged c s t) {V : Vector Byte 16} (hV : ∀ r : RegIdx, r ∉ c.regs → V[r] = s.V[r]) :
    Unchanged c s (t.setRegs V) :=
  { h with regs := hV, bytes := h.bytes }

theorem Unchanged.setStack (h : Unchanged c s t) (hS : c.stack = true) (entries : Vector Word 16) (depth : Fin 17) :
    Unchanged c s (t.setStack entries depth) :=
  { h with stack := fun hF => nomatch hS.symm.trans hF }

theorem Unchanged.setDelay (h : Unchanged c s t) (hD : c.delay = true) (b : Byte) : Unchanged c s (t.setDelay b) :=
  { h with delay := fun hF => nomatch hD.symm.trans hF }

theorem Unchanged.setSound (h : Unchanged c s t) (hS : c.sound = true) (b : Byte) : Unchanged c s (t.setSound b) :=
  { h with sound := fun hF => nomatch hS.symm.trans hF }

theorem Unchanged.setRndIndex (h : Unchanged c s t) (hR : c.rndIndex = true) (n : Nat) :
    Unchanged c s (t.setRndIndex n) :=
  { h with rndIndex := fun hF => nomatch hR.symm.trans hF }

theorem Unchanged.writeByte (h : Unchanged c s t) {a : Addr} (ha : a ∈ c.bytes) (v : Byte) :
    Unchanged c s (t.writeByte a v) :=
  h.setMemory fun b hb => (Memory.read_write_other _ v fun e : b = a => hb (e ▸ ha)).trans (h.bytes b hb)

theorem Unchanged.setLatches (h : Unchanged c s t) (hL : c.latches = true) (b : Bool) (code : BitVec 3) (a : Addr)
    (w : Word) : Unchanged c s (t.setLatches b code a w) :=
  { h with latches := fun hF => nomatch hL.symm.trans hF }

end frame

theorem unchanged_writeV (s : State) (x : RegIdx) (b : Byte) : Unchanged { regs := [x] } s (s.writeV x b) :=
  (Unchanged.refl _ s).writeV (List.mem_singleton_self x) b

theorem unchanged_writeResultFlag (s : State) (x : RegIdx) (b : Byte) (f : Bool) :
    Unchanged { regs := [x, vF] } s (s.writeResultFlag x b f) :=
  (Unchanged.refl _ s).writeResultFlag (by simp) (by simp) b f

theorem unchanged_skipIf (s : State) (b : Bool) : Unchanged {} s (s.skipIf b) := (Unchanged.refl _ s).skipIf b

/-! ### Skips and the fatal entry -/

/-- A skip whose condition holds (R94). -/
theorem skipIf_pc_of_true (s : State) {b : Bool} (h : b = true) : (s.skipIf b).pc.toNat = (s.pc.toNat + 2) % 0x1000 := by
  subst h; exact nextPc_toNat s.pc

/-- A skip whose condition fails (R94). -/
theorem skipIf_pc_of_false (s : State) {b : Bool} (h : b = false) : (s.skipIf b).pc = s.pc := by subst h; rfl

theorem instrAddr_toNat (s : State) : s.instrAddr.toNat = (s.pc.toNat + 0xFFE) % 0x1000 := by
  rw [State.instrAddr, BitVec.toNat_setWidth, prevPc_toNat]; omega

/-- Raising a fault inside an instruction is the entry that `Halts` describes (R165). -/
theorem halts_raise (f : Fault) (w : Word) (s : State) : Halts f w.toNat s (raise f w s) :=
  ⟨rfl, rfl, instrAddr_toNat s, rfl, rfl, (Unchanged.refl _ s).setLatches rfl _ _ _ _⟩

end Sys2Proof.Machine
end

section
/-! SUPPORT. What each instruction answers, in the operations of `Machine/Ops.lean`: exec's arm and the meaning it calls,
unfolded once. -/

namespace Sys2Proof.Machine

section answers
variable (s : State) (x y : RegIdx) (nn : Byte) (nnn : Addr) (u : BitVec 4)

theorem exec_op6XNN : exec (.op6XNN x nn) s = .next (s.writeV x nn) := rfl
theorem exec_op7XNN : exec (.op7XNN x nn) s = .next (s.writeV x (sum8 s.V[x] nn)) := rfl
theorem exec_op8XY0 : exec (.op8XY0 x y) s = .next (s.writeV x s.V[y]) := rfl
theorem exec_op8XY1 : exec (.op8XY1 x y) s = .next (s.writeV x (s.V[x] ||| s.V[y])) := rfl
theorem exec_op8XY2 : exec (.op8XY2 x y) s = .next (s.writeV x (s.V[x] &&& s.V[y])) := rfl
theorem exec_op8XY3 : exec (.op8XY3 x y) s = .next (s.writeV x (s.V[x] ^^^ s.V[y])) := rfl
theorem exec_op8XY4 :
    exec (.op8XY4 x y) s = .next (s.writeResultFlag x (sum8 s.V[x] s.V[y]) (carry s.V[x] s.V[y])) := rfl
theorem exec_op8XY5 :
    exec (.op8XY5 x y) s = .next (s.writeResultFlag x (diff8 s.V[x] s.V[y]) (notBorrow s.V[x] s.V[y])) := rfl
theorem exec_op8XY6 :
    exec (.op8XY6 x y) s = .next (s.writeResultFlag x (shiftRight1 s.V[y]) (bitOutRight s.V[y])) := rfl
theorem exec_op8XY7 :
    exec (.op8XY7 x y) s = .next (s.writeResultFlag x (diff8 s.V[y] s.V[x]) (notBorrow s.V[y] s.V[x])) := rfl
theorem exec_op8XYE :
    exec (.op8XYE x y) s = .next (s.writeResultFlag x (shiftLeft1 s.V[y]) (bitOutLeft s.V[y])) := rfl
theorem exec_opCXNN :
    exec (.opCXNN x nn) s = .next ((s.writeV x (Config.rnd s.rndIndex &&& nn)).setRndIndex (s.rndIndex + 1)) := rfl

theorem exec_op0NNN :
    exec (.op0NNN nnn) s = .next (raise .unsupportedMachineCall (encode (.op0NNN nnn)) s) := rfl
theorem exec_op3XNN : exec (.op3XNN x nn) s = .next (s.skipIf (s.V[x] == nn)) := rfl
theorem exec_op4XNN : exec (.op4XNN x nn) s = .next (s.skipIf (s.V[x] != nn)) := rfl
theorem exec_op5XY0 : exec (.op5XY0 x y u) s = .next (s.skipIf (s.V[x] == s.V[y])) := rfl
theorem exec_op9XY0 : exec (.op9XY0 x y u) s = .next (s.skipIf (s.V[x] != s.V[y])) := rfl

theorem exec_opDXYN : exec (.opDXYN x y u) s =
    .next ((s.setScreen (drawSprite s.memory s.I s.V[x].toNat s.V[y].toNat u.toNat s.screen).1).writeFlag
      (drawSprite s.memory s.I s.V[x].toNat s.V[y].toNat u.toNat s.screen).2) := rfl

theorem exec_opFX1E :
    exec (.opFX1E x) s = .next ((s.setI (indexPlus s.I s.V[x].toNat)).writeFlag (indexOverflow s.I s.V[x])) := rfl
theorem exec_opFX33 : exec (.opFX33 x) s =
    .next (((s.writeByte (ea s.I 0) (hundreds s.V[x])).writeByte (ea s.I 1) (tens s.V[x])).writeByte (ea s.I 2)
      (ones s.V[x])) := rfl
theorem exec_opFX65 : exec (.opFX65 x) s =
    .next ((s.setRegs (loadRegs s.memory s.I (x.val + 1) s.V)).setI (indexPlus s.I (x.val + 1))) := rfl

theorem exec_opEX9E : exec (.opEX9E x) s = .next (s.skipIf (keyDown s.keypad (keyIndex s.V[x]))) := rfl
theorem exec_opEXA1 : exec (.opEXA1 x) s = .next (s.skipIf (!keyDown s.keypad (keyIndex s.V[x]))) := rfl
theorem exec_opFX07 : exec (.opFX07 x) s = .next (s.writeV x s.delay) := rfl
theorem exec_opFX15 : exec (.opFX15 x) s = .next (s.setDelay s.V[x]) := rfl
theorem exec_opFX18 : exec (.opFX18 x) s = .next (s.setSound s.V[x]) := rfl

/-! The three instructions that have two outcomes. -/

/-- `2NNN` with room on the stack (R93). -/
theorem exec_op2NNN_of_room (h : s.sp.val < 16) : exec (.op2NNN nnn) s =
    .next ((s.setStack (s.stack.set s.sp.val s.pc h) ⟨s.sp.val + 1, by omega⟩).setPc (zext16 nnn)) := by
  simp [exec, exec2NNN, push, h]

/-- `2NNN` on a full stack (R164). -/
theorem exec_op2NNN_of_full (h : s.sp.val = 16) :
    exec (.op2NNN nnn) s = .next (raise .stackOverflow (encode (.op2NNN nnn)) s) := by
  simp [exec, exec2NNN, push, h]

/-- `00EE` with an entry on the stack (R90). -/
theorem exec_op00EE_of_entry (h : 0 < s.sp.val) : exec .op00EE s =
    .next ((s.setStack s.stack ⟨s.sp.val - 1, by omega⟩).setPc (s.stack[s.sp.val - 1]'(by omega))) := by
  simp [exec, exec00EE, pop, h]

/-- `00EE` on an empty stack (R162). -/
theorem exec_op00EE_of_empty (h : s.sp.val = 0) :
    exec .op00EE s = .next (raise .stackUnderflow (encode .op00EE) s) := by
  simp [exec, exec00EE, pop, h]

/-- `FX0A` with no key down (R153). -/
theorem exec_opFX0A_of_none (h : s.keypad = 0) : exec (.opFX0A x) s = .next (s.setPc (prevPc s.pc)) := if_pos h

/-- `FX0A` with a key down (R153). -/
theorem exec_opFX0A_of_key (h : s.keypad ≠ 0) :
    exec (.opFX0A x) s = .next (s.writeV x (BitVec.ofNat 8 (lowestKey s.keypad))) := if_neg h

end answers

theorem stack_full_of_not_room {s : State} (h : ¬ s.sp.val < 16) : s.sp.val = 16 := by have := s.sp.isLt; omega

theorem stack_empty_of_no_entry {s : State} (h : ¬ 0 < s.sp.val) : s.sp.val = 0 := Nat.eq_zero_of_not_pos h

/-- Everything `00EE` can answer (R90, R162). -/
theorem exec_op00EE_cases {s t : State} (h : exec .op00EE s = .next t) :
    (∃ hsp : 0 < s.sp.val,
      t = (s.setStack s.stack ⟨s.sp.val - 1, by omega⟩).setPc (s.stack[s.sp.val - 1]'(by omega))) ∨
    (s.sp.val = 0 ∧ t = raise .stackUnderflow (encode .op00EE) s) := by
  by_cases hsp : 0 < s.sp.val
  · rw [exec_op00EE_of_entry s hsp] at h; cases h; exact .inl ⟨hsp, rfl⟩
  · have hsp := stack_empty_of_no_entry hsp
    rw [exec_op00EE_of_empty s hsp] at h; cases h; exact .inr ⟨hsp, rfl⟩

/-- Everything `2NNN` can answer (R93, R164). -/
theorem exec_op2NNN_cases {s t : State} {nnn : Addr} (h : exec (.op2NNN nnn) s = .next t) :
    (∃ hsp : s.sp.val < 16,
      t = (s.setStack (s.stack.set s.sp.val s.pc hsp) ⟨s.sp.val + 1, by omega⟩).setPc (zext16 nnn)) ∨
    (s.sp.val = 16 ∧ t = raise .stackOverflow (encode (.op2NNN nnn)) s) := by
  by_cases hsp : s.sp.val < 16
  · rw [exec_op2NNN_of_room s nnn hsp] at h; cases h; exact .inl ⟨hsp, rfl⟩
  · have hsp := stack_full_of_not_room hsp
    rw [exec_op2NNN_of_full s nnn hsp] at h; cases h; exact .inr ⟨hsp, rfl⟩

/-- Everything `FX0A` can answer (R153). -/
theorem exec_opFX0A_cases {s t : State} {x : RegIdx} (h : exec (.opFX0A x) s = .next t) :
    (s.keypad = 0 ∧ t = s.setPc (prevPc s.pc)) ∨
    (s.keypad ≠ 0 ∧ t = s.writeV x (BitVec.ofNat 8 (lowestKey s.keypad))) := by
  by_cases hk : s.keypad = 0
  · rw [exec_opFX0A_of_none s x hk] at h; cases h; exact .inl ⟨hk, rfl⟩
  · rw [exec_opFX0A_of_key s x hk] at h; cases h; exact .inr ⟨hk, rfl⟩

/-- No instruction faults or is refused, in any state (R160; log entry 6). -/
theorem exec_next (i : Instr) (s : State) : ∃ t, exec i s = .next t := by
  cases i
  case op2NNN nnn =>
    by_cases h : s.sp.val < 16
    · exact ⟨_, exec_op2NNN_of_room s nnn h⟩
    · exact ⟨_, exec_op2NNN_of_full s nnn (stack_full_of_not_room h)⟩
  case op00EE =>
    by_cases h : 0 < s.sp.val
    · exact ⟨_, exec_op00EE_of_entry s h⟩
    · exact ⟨_, exec_op00EE_of_empty s (stack_empty_of_no_entry h)⟩
  case opFX0A x =>
    by_cases h : s.keypad = 0
    · exact ⟨_, exec_opFX0A_of_none s x h⟩
    · exact ⟨_, exec_opFX0A_of_key s x h⟩
  all_goals exact ⟨_, rfl⟩

end Sys2Proof.Machine
end

section
/-! SUPPORT. The decoder and the encoder as inverses (30_encoding.md R61 to R71), and the decoder against the opcode map. -/

namespace Sys2Proof

/-- Settles O49, by the round trip of each row (`Laws.RoundTrip`). -/
theorem decodeGivesBackEveryWellFormedInstruction : Obligations.DecodeGivesBackEveryWellFormedInstruction := by
  open Laws.RoundTrip in
  intro i
  cases i with
  | op00E0 => exact op00E0
  | op00EE => exact op00EE
  | op0NNN nnn => exact op0NNN nnn
  | op1NNN nnn => exact op1NNN nnn
  | op2NNN nnn => exact op2NNN nnn
  | op3XNN x nn => exact op3XNN x nn
  | op4XNN x nn => exact op4XNN x nn
  | op5XY0 x y u => exact op5XY0 x y u
  | op6XNN x nn => exact op6XNN x nn
  | op7XNN x nn => exact op7XNN x nn
  | op8XY0 x y => exact op8XY0 x y
  | op8XY1 x y => exact op8XY1 x y
  | op8XY2 x y => exact op8XY2 x y
  | op8XY3 x y => exact op8XY3 x y
  | op8XY4 x y => exact op8XY4 x y
  | op8XY5 x y => exact op8XY5 x y
  | op8XY6 x y => exact op8XY6 x y
  | op8XY7 x y => exact op8XY7 x y
  | op8XYE x y => exact op8XYE x y
  | op9XY0 x y u => exact op9XY0 x y u
  | opANNN nnn => exact opANNN nnn
  | opBNNN nnn => exact opBNNN nnn
  | opCXNN x nn => exact opCXNN x nn
  | opDXYN x y n => exact opDXYN x y n
  | opEX9E x => exact opEX9E x
  | opEXA1 x => exact opEXA1 x
  | opFX07 x => exact opFX07 x
  | opFX0A x => exact opFX0A x
  | opFX15 x => exact opFX15 x
  | opFX18 x => exact opFX18 x
  | opFX1E x => exact opFX1E x
  | opFX29 x => exact opFX29 x
  | opFX33 x => exact opFX33 x
  | opFX55 x => exact opFX55 x
  | opFX65 x => exact opFX65 x

/-! ### A word put together again from its fields -/

section fields
variable {w : Word} {op : BitVec 4}

theorem encodeA_fields (hop : (fieldOP w).toNat = op.toNat) : encodeA op (fieldNNN w) = w := by
  apply BitVec.eq_of_toNat_eq
  rw [encodeA_toNat, ← hop, fieldOP_toNat, fieldNNN_toNat]; omega

theorem encodeRI_fields (hop : (fieldOP w).toNat = op.toNat) : encodeRI op (fieldX w) (fieldNN w) = w := by
  apply BitVec.eq_of_toNat_eq
  rw [encodeRI_toNat, ← hop, fieldOP_toNat, fieldX_val, fieldNN_toNat]; omega

theorem encodeRR_fields (hop : (fieldOP w).toNat = op.toNat) :
    encodeRR op (fieldX w) (fieldY w) (fieldN w) = w := by
  apply BitVec.eq_of_toNat_eq
  rw [encodeRR_toNat, ← hop, fieldOP_toNat, fieldX_val, fieldY_val, fieldN_toNat]; omega

/-- A word whose function nibble is known. -/
theorem encodeRR_function {n : BitVec 4} (hop : (fieldOP w).toNat = op.toNat) (hn : (fieldN w).toNat = n.toNat) :
    encodeRR op (fieldX w) (fieldY w) n = w :=
  BitVec.eq_of_toNat_eq hn ▸ encodeRR_fields hop

/-- A word whose function byte is known. -/
theorem encodeRF_function {f : Byte} (hop : (fieldOP w).toNat = op.toNat) (hf : fieldNN w = f) :
    encodeRF op (fieldX w) f = w :=
  hf ▸ encodeRI_fields hop

end fields

/-! ### The encoder after the decoder, family by family -/

section families
variable {w : Word} {i : Instr}

/-- R65: a word of family 0 other than the two compared is a machine-code call that is neither of them. -/
theorem encode_decodeFamily0 (hop : (fieldOP w).toNat = 0x0) :
    encode (decodeFamily0 w) = w ∧ (decodeFamily0 w).wellFormed = true := by
  have hw : encodeA 0x0 (fieldNNN w) = w := encodeA_fields hop
  unfold decodeFamily0
  split
  case isTrue h => exact ⟨h.symm, rfl⟩
  case isFalse h0 =>
    split
    case isTrue h => exact ⟨h.symm, rfl⟩
    case isFalse hE =>
      refine ⟨hw, ?_⟩
      have h1 : fieldNNN w ≠ 0x0E0#12 := fun e => h0 (by rw [← hw, e]; rfl)
      have h2 : fieldNNN w ≠ 0x0EE#12 := fun e => hE (by rw [← hw, e]; rfl)
      simp [Instr.wellFormed, h1, h2]

theorem encode_decodeFamily8 (hop : (fieldOP w).toNat = 0x8) (h : decodeFamily8 w = .ok i) :
    encode i = w ∧ i.wellFormed = true := by
  unfold decodeFamily8 at h
  split at h
  case h_10 => cases h
  all_goals
    next hn =>
    cases h
    exact ⟨encodeRR_function hop hn, rfl⟩

theorem encode_decodeFamilyE (hop : (fieldOP w).toNat = 0xE) (h : decodeFamilyE w = .ok i) :
    encode i = w ∧ i.wellFormed = true := by
  unfold decodeFamilyE at h
  split at h
  case isTrue hf => cases h; exact ⟨encodeRF_function hop hf, rfl⟩
  case isFalse =>
    split at h
    case isTrue hf => cases h; exact ⟨encodeRF_function hop hf, rfl⟩
    case isFalse => cases h

theorem encode_decodeFamilyF (hop : (fieldOP w).toNat = 0xF) (h : decodeFamilyF w = .ok i) :
    encode i = w ∧ i.wellFormed = true := by
  unfold decodeFamilyF at h
  iterate 9
    split at h
    case isTrue hf => cases h; exact ⟨encodeRF_function hop hf, rfl⟩
  cases h

/-- R61, R62: no bit is lost by decoding, and what is decoded is well-formed. -/
theorem encode_of_decodeWord (h : decodeWord w = .ok i) : encode i = w ∧ i.wellFormed = true := by
  unfold decodeWord at h
  split at h
  case h_1 hop => cases h; exact encode_decodeFamily0 hop
  case h_2 hop | h_3 hop | h_11 hop | h_12 hop => cases h; exact ⟨encodeA_fields hop, rfl⟩
  case h_4 hop | h_5 hop | h_7 hop | h_8 hop | h_13 hop => cases h; exact ⟨encodeRI_fields hop, rfl⟩
  case h_6 hop | h_10 hop | h_14 hop => cases h; exact ⟨encodeRR_fields hop, rfl⟩
  case h_9 hop => exact encode_decodeFamily8 hop h
  case h_15 hop => exact encode_decodeFamilyE hop h
  case h_16 hop => exact encode_decodeFamilyF hop h
  case h_17 => cases h

end families

/-- Settles O50. -/
theorem decodedInstructionHasTheWordItCameFrom : Obligations.DecodedInstructionHasTheWordItCameFrom :=
  fun _ _ => encode_of_decodeWord

/-! ### Words without a handler (R71) -/

theorem decodeFamily8_error_iff (w : Word) : decodeFamily8 w = .error (.illegalOpcode w) ↔
    (fieldN w).toNat ∈ [0x8, 0x9, 0xA, 0xB, 0xC, 0xD, 0xF] := by
  have hlt := (fieldN w).isLt
  unfold decodeFamily8
  generalize (fieldN w).toNat = n at hlt ⊢
  interval_cases n <;> simp

theorem fieldNN_eq_iff (w : Word) (f : Byte) : fieldNN w = f ↔ (fieldNN w).toNat = f.toNat := BitVec.toNat_inj.symm

theorem decodeFamilyE_error_iff (w : Word) : decodeFamilyE w = .error (.illegalOpcode w) ↔
    (fieldNN w).toNat ∉ [0x9E, 0xA1] := by
  simp only [decodeFamilyE, fieldNN_eq_iff]
  split_ifs <;> simp_all

theorem decodeFamilyF_error_iff (w : Word) : decodeFamilyF w = .error (.illegalOpcode w) ↔
    (fieldNN w).toNat ∉ [0x07, 0x0A, 0x15, 0x18, 0x1E, 0x29, 0x33, 0x55, 0x65] := by
  simp only [decodeFamilyF, fieldNN_eq_iff]
  split_ifs <;> simp_all

/-- R71, in the fields: only three families have words without a handler. -/
theorem decodeWord_error_iff (w : Word) : decodeWord w = .error (.illegalOpcode w) ↔
    ((fieldOP w).toNat = 0x8 ∧ (fieldN w).toNat ∈ [0x8, 0x9, 0xA, 0xB, 0xC, 0xD, 0xF]) ∨
    ((fieldOP w).toNat = 0xE ∧ (fieldNN w).toNat ∉ [0x9E, 0xA1]) ∨
    ((fieldOP w).toNat = 0xF ∧ (fieldNN w).toNat ∉ [0x07, 0x0A, 0x15, 0x18, 0x1E, 0x29, 0x33, 0x55, 0x65]) := by
  have hlt := (fieldOP w).isLt
  unfold decodeWord
  generalize (fieldOP w).toNat = op at hlt ⊢
  interval_cases op <;> simp [decodeFamily8_error_iff, decodeFamilyE_error_iff, decodeFamilyF_error_iff]

/-- R65: the machine-code calls. -/
theorem decodeWord_op0NNN_iff (w : Word) : (∃ nnn, decodeWord w = .ok (.op0NNN nnn)) ↔
    w.toNat / 0x1000 = 0 ∧ w.toNat ≠ 0x00E0 ∧ w.toNat ≠ 0x00EE := by
  constructor
  · rintro ⟨nnn, h⟩
    obtain ⟨rfl, hwf⟩ := encode_of_decodeWord h
    have hw : (encode (.op0NNN nnn)).toNat = nnn.toNat := by rw [encode, encodeA_toNat]; simp
    have hlt := nnn.isLt
    rw [Instr.wellFormed, Bool.and_eq_true, bne_iff_ne, bne_iff_ne] at hwf
    rw [hw]
    exact ⟨by omega, fun e => hwf.1 (BitVec.eq_of_toNat_eq e), fun e => hwf.2 (BitVec.eq_of_toNat_eq e)⟩
  · rintro ⟨hop, h0, hE⟩
    have h0 : w ≠ 0x00E0#16 := fun e => h0 (congrArg BitVec.toNat e)
    have hE : w ≠ 0x00EE#16 := fun e => hE (congrArg BitVec.toNat e)
    rw [← fieldOP_toNat] at hop
    exact ⟨fieldNNN w, by simp [decodeWord, hop, decodeFamily0, h0, hE]⟩

/-- Settles O52, from the gaps family by family. -/
theorem decodeGapsAreExactlyTheSpecs : Obligations.DecodeGapsAreExactlyTheSpecs := fun w =>
  ⟨by rw [← fieldOP_toNat, ← fieldN_toNat, ← fieldNN_toNat]; exact decodeWord_error_iff w, decodeWord_op0NNN_iff w⟩

/-! ### The opcode map (R70) -/

theorem and_0xF (n : BitVec 4) : n &&& 0xF = n := BitVec.and_allOnes

theorem and_0xFF (n : Byte) : n &&& 0xFF = n := BitVec.and_allOnes

section rows
variable (w b : Word)

/-- A row of formats A and RI is matched by `OP`. -/
theorem and_maskOP_beq : (w &&& 0xF000 == b) =
    decide ((fieldOP w).toNat = b.toNat / 0x1000 ∧ b.toNat % 0x1000 = 0) := by
  have h : w &&& 0xF000 = encodeA (fieldOP w) 0 :=
    calc w &&& 0xF000 = encodeA (fieldOP w) (fieldNNN w) &&& encodeA 0xF 0 := by rw [encodeA_fields rfl]; rfl
      _ = encodeA (fieldOP w &&& 0xF) (fieldNNN w &&& 0) := BitVec.and_append
      _ = encodeA (fieldOP w) 0 := congrArg₂ encodeA (and_0xF _) BitVec.and_zero
  rw [h, Bool.eq_iff_iff, beq_iff_eq, decide_eq_true_iff, ← BitVec.toNat_inj, encodeA_toNat,
    show (0 : Addr).toNat = 0 from rfl]
  omega

/-- A row of format RR is matched by `OP` and `N`. -/
theorem and_maskN_beq : (w &&& 0xF00F == b) = decide ((fieldOP w).toNat = b.toNat / 0x1000 ∧
    (fieldN w).toNat = b.toNat % 0x10 ∧ b.toNat / 0x10 % 0x100 = 0) := by
  have h : w &&& 0xF00F = encodeRR (fieldOP w) 0 0 (fieldN w) :=
    calc w &&& 0xF00F = encodeRR (fieldOP w) (fieldX w) (fieldY w) (fieldN w) &&& encodeRR 0xF 0 0 0xF := by
          rw [encodeRR_fields rfl]; rfl
      _ = (fieldOP w &&& 0xF) ++ (regBits (fieldX w) &&& 0) ++ (regBits (fieldY w) &&& 0) ++ (fieldN w &&& 0xF) := by
          rw [← BitVec.and_append, ← BitVec.and_append, ← BitVec.and_append]; rfl
      _ = encodeRR (fieldOP w) 0 0 (fieldN w) := by
          rw [and_0xF, and_0xF]; simp; rfl
  rw [h, Bool.eq_iff_iff, beq_iff_eq, decide_eq_true_iff, ← BitVec.toNat_inj, encodeRR_toNat]
  have := (fieldN w).isLt
  simp only [Fin.val_zero]; omega

/-- A row of format RF is matched by `OP` and `NN`. -/
theorem and_maskNN_beq : (w &&& 0xF0FF == b) = decide ((fieldOP w).toNat = b.toNat / 0x1000 ∧
    (fieldNN w).toNat = b.toNat % 0x100 ∧ b.toNat / 0x100 % 0x10 = 0) := by
  have h : w &&& 0xF0FF = encodeRI (fieldOP w) 0 (fieldNN w) :=
    calc w &&& 0xF0FF = encodeRI (fieldOP w) (fieldX w) (fieldNN w) &&& encodeRI 0xF 0 0xFF := by
          rw [encodeRI_fields rfl]; rfl
      _ = (fieldOP w &&& 0xF) ++ (regBits (fieldX w) &&& 0) ++ (fieldNN w &&& 0xFF) := by
          rw [← BitVec.and_append, ← BitVec.and_append]; rfl
      _ = encodeRI (fieldOP w) 0 (fieldNN w) := by
          rw [and_0xF, and_0xFF]; simp; rfl
  rw [h, Bool.eq_iff_iff, beq_iff_eq, decide_eq_true_iff, ← BitVec.toNat_inj, encodeRI_toNat]
  have := (fieldNN w).isLt
  simp only [Fin.val_zero]; omega

/-- A row of family 0 with a fixed word is matched by the whole word. -/
theorem word_eq_iff :
    w = b ↔ (fieldOP w).toNat = b.toNat / 0x1000 ∧ (fieldNNN w).toNat = b.toNat % 0x1000 := by
  rw [← BitVec.toNat_inj, fieldOP_toNat, fieldNNN_toNat]; omega

theorem and_maskAll_beq : (w &&& 0xFFFF == b) =
    decide ((fieldOP w).toNat = b.toNat / 0x1000 ∧ (fieldNNN w).toNat = b.toNat % 0x1000) := by
  have h : w &&& 0xFFFF = w := BitVec.and_allOnes
  rw [h, Bool.eq_iff_iff, beq_iff_eq, decide_eq_true_iff, word_eq_iff]

end rows

/-- Settles O51: every match of a row is a condition on `OP` and on the key of `OP`'s family. With `OP` known the rows of the
other families fail, and the rows left try the same keys in the order of the family's own decoder. -/
theorem dispatchIsTheFirstMatchOfTheOpcodeMap : Obligations.DispatchIsTheFirstMatchOfTheOpcodeMap := by
  intro w
  have hlt := (fieldOP w).isLt
  simp only [decodeWord, decodeByMap, opcodeMap, List.cons_append, List.nil_append, List.find?_cons, and_maskOP_beq,
    and_maskN_beq, and_maskNN_beq, and_maskAll_beq, decodeFamily0, word_eq_iff, decodeFamily8, decodeFamilyE,
    decodeFamilyF, fieldNN_eq_iff]
  generalize (fieldOP w).toNat = op at hlt ⊢
  match op, hlt with
  | 0x8, _ =>
    have hlt := (fieldN w).isLt
    generalize (fieldN w).toNat = n at hlt ⊢
    interval_cases n <;> rfl
  | 0x0, _ | 0xE, _ | 0xF, _ => simp; split_ifs <;> simp_all
  | 0x1, _ | 0x2, _ | 0x3, _ | 0x4, _ | 0x5, _ | 0x6, _ | 0x7, _ | 0x9, _ | 0xA, _ | 0xB, _ | 0xC, _ | 0xD, _ => rfl
  | n + 16, hlt => omega

/-- Settles O48, by running the decoder on the ten words. -/
theorem sampleWordsDecode : Obligations.SampleWordsDecode := by
  unfold Obligations.SampleWordsDecode; decide

end Sys2Proof
end

section
/-! SUPPORT. The step cycle (40_step_cycle.md R80), its fatal conditions (60_exceptions.md R160 to R166), and what each event
answers (R181). -/

open Sys2Proof.Stmt

namespace Sys2Proof.Machine

/-! ### Which event a step performs (R181; log entry 2) -/

section events
variable {s : State} {es : List Event}

theorem step_of_stepIsNext (h : StepIsNext s es) : step s = stepEvent (s.setSchedule es) := by
  rcases h with h | ⟨h, rfl⟩
  · simp [step, h]
  · have hs : s.setSchedule [] = s := h ▸ rfl
    simp [step, h, hs]

theorem step_of_tick (h : s.schedule = .tick :: es) : step s = .next (tickEvent (s.setSchedule es)) := by
  simp [step, h]

theorem step_of_setKeys {k : BitVec 16} (h : s.schedule = .setKeys k :: es) :
    step s = .next (setKeysEvent k (s.setSchedule es)) := by
  simp [step, h]

theorem step_of_reset {image : List Byte} (h : s.schedule = .reset image :: es) :
    step s = resetEvent image (s.setSchedule es) := by
  simp [step, h]

/-- What is pending decides the event. -/
theorem event_cases (s : State) : (∃ es, StepIsNext s es) ∨ (∃ es, s.schedule = .tick :: es) ∨
    (∃ k es, s.schedule = .setKeys k :: es) ∨ ∃ image es, s.schedule = .reset image :: es := by
  rcases h : s.schedule with _ | ⟨e, es⟩
  · exact .inl ⟨[], .inr ⟨h, rfl⟩⟩
  · cases e with
    | step => exact .inl ⟨es, .inl h⟩
    | tick => exact .inr (.inl ⟨es, rfl⟩)
    | setKeys k => exact .inr (.inr (.inl ⟨k, es, rfl⟩))
    | reset image => exact .inr (.inr (.inr ⟨image, es, rfl⟩))

end events

/-- Settles O39. -/
theorem setKeysChangesOnlyTheKeypad : Obligations.SetKeysChangesOnlyTheKeypad := fun _ _ _ => step_of_setKeys

/-! ### Reset (R190) -/

/-- The state that a reset with a short enough image leaves (R190; log entry 8). -/
def State.afterReset (s : State) (image : List Byte) : State :=
  (((State.reset.setMemory (Memory.withImage image)).setKeypad s.keypad).setRndIndex s.rndIndex).setSchedule s.schedule

theorem resetEvent_of_le {image : List Byte} (h : image.length ≤ 3584) (s : State) :
    resetEvent image s = .next (s.afterReset image) := if_pos h

theorem resetEvent_of_gt {image : List Byte} (h : 3584 < image.length) (s : State) :
    resetEvent image s = .refused .imageTooLong := if_neg (Nat.not_le_of_lt h)

theorem eq_afterReset {image : List Byte} {s t : State} (h : resetEvent image s = .next t) : t = s.afterReset image := by
  by_cases hl : image.length ≤ 3584
  · rw [resetEvent_of_le hl] at h; cases h; rfl
  · rw [resetEvent_of_gt (Nat.lt_of_not_le hl)] at h; cases h

/-- One induction step for all invariants: what the bookkeeping of the events keeps, and each event keeps, and a reset
leaves, holds after every step. -/
theorem step_preserves {P : State → Prop} {s t : State} (hs : P s) (h : step s = .next t)
    (hschedule : ∀ s es, P s → P (s.setSchedule es)) (hstep : ∀ s t, P s → stepEvent s = .next t → P t)
    (htick : ∀ s, P s → P (tickEvent s)) (hkeys : ∀ s k, P s → P (setKeysEvent k s))
    (hreset : ∀ (s : State) image, P (s.afterReset image)) : P t := by
  rcases event_cases s with ⟨es, he⟩ | ⟨es, he⟩ | ⟨k, es, he⟩ | ⟨image, es, he⟩
  · rw [step_of_stepIsNext he] at h; exact hstep _ _ (hschedule s es hs) h
  · rw [step_of_tick he] at h; cases h; exact htick _ (hschedule s es hs)
  · rw [step_of_setKeys he] at h; cases h; exact hkeys _ k (hschedule s es hs)
  · rw [step_of_reset he] at h; rw [eq_afterReset h]; exact hreset _ image

/-! ### Fetch -/

theorem fetchAddr_toNat (s : State) : s.fetchAddr.toNat = s.pc.toNat % 0x1000 := BitVec.toNat_setWidth _ _

theorem fetchAddr_eq_ofNat (s : State) : s.fetchAddr = BitVec.ofNat 12 s.pc.toNat :=
  BitVec.eq_of_toNat_eq (by rw [fetchAddr_toNat, BitVec.toNat_ofNat])

theorem nextPc_eq_ofNat (pc : Word) : nextPc pc = BitVec.ofNat 16 ((pc.toNat + 2) % 0x1000) := by
  apply BitVec.eq_of_toNat_eq
  rw [nextPc_toNat, BitVec.toNat_ofNat]; omega

/-! ### The end of a step (R80) -/

theorem endStep_of_halted {t : State} (h : t.halted = true) (d : Byte) : t.endStep d = t := if_pos h

theorem endStep_of_running {t : State} (h : t.halted = false) (d : Byte) :
    t.endStep d = t.setDtFresh (decide (d.toNat < t.delay.toNat)) := by simp [State.endStep, h]

theorem endStep_eq_ite (t : State) (d : Byte) :
    t.endStep d = if t.halted = true then t else { t with dtFresh := decide (d.toNat < t.delay.toNat) } := rfl

/-! ### The `Step` event -/

section stepEvent
variable {s t : State}

theorem stepEvent_of_halted (h : s.halted = true) : stepEvent s = .next s := if_pos h

theorem stepEvent_of_ok (hs : s.halted = false) {i : Instr} (hd : decodeWord s.fetchWord = .ok i) {u : State}
    (hu : exec i s.advance = .next u) : stepEvent s = .next (u.endStep s.delay) := by
  simp only [stepEvent, hs, hd, hu, endStep]; rfl

theorem stepEvent_of_error (hs : s.halted = false) {e : DecodeError} (hd : decodeWord s.fetchWord = .error e) :
    stepEvent s = .next (raiseAt .illegalOpcode s.fetchAddr s.fetchWord s.advance) := by
  simp [stepEvent, hs, hd]

/-- A step that faults inside an instruction takes the entry with the address and the word of the fetch (R165; log
entry 7): the advanced `pc` gives the address back, and the encoder gives the word back. -/
theorem stepEvent_of_raise (hs : s.halted = false) {i : Instr} (hd : decodeWord s.fetchWord = .ok i) {f : Fault}
    (hf : exec i s.advance = .next (raise f (encode i) s.advance)) :
    stepEvent s = .next (raiseAt f s.fetchAddr s.fetchWord s.advance) := by
  rw [stepEvent_of_ok hs hd hf, endStep_of_halted rfl, raise, instrAddr_advance, (encode_of_decodeWord hd).1]

/-- Under each of the four conditions the step takes the fault entry of that condition (R160 to R165). -/
theorem stepEvent_of_fatal (hs : s.halted = false) {f : Fault} (hf : Fatal s f) :
    stepEvent s = .next (raiseAt f s.fetchAddr s.fetchWord s.advance) := by
  cases f with
  | unsupportedMachineCall =>
    obtain ⟨nnn, hd⟩ := hf
    exact stepEvent_of_raise hs hd (exec_op0NNN s.advance nnn)
  | stackUnderflow =>
    obtain ⟨hd, hsp⟩ := hf
    exact stepEvent_of_raise hs hd (exec_op00EE_of_empty s.advance hsp)
  | illegalOpcode => exact stepEvent_of_error hs hf
  | stackOverflow =>
    obtain ⟨⟨nnn, hd⟩, hsp⟩ := hf
    exact stepEvent_of_raise hs hd (exec_op2NNN_of_full s.advance nnn hsp)

/-- Everything a step of a running core can do: an instruction completes and `dt_fresh` is set, or one of the fatal
conditions holds and its entry is taken (R80, R165). -/
theorem stepEvent_running_cases (hs : s.halted = false) (h : stepEvent s = .next t) :
    (∃ i u, decodeWord s.fetchWord = .ok i ∧ exec i s.advance = .next u ∧ u.halted = false ∧
      t = u.setDtFresh (decide (s.delay.toNat < u.delay.toNat))) ∨
    (∃ f, Fatal s f ∧ t = raiseAt f s.fetchAddr s.fetchWord s.advance) := by
  have faulted {f : Fault} (hf : Fatal s f) : ∃ f, Fatal s f ∧ t = raiseAt f s.fetchAddr s.fetchWord s.advance := by
    rw [stepEvent_of_fatal hs hf] at h; cases h; exact ⟨f, hf, rfl⟩
  cases hd : decodeWord s.fetchWord with
  | error e => 
    obtain rfl := decodeWord_error hd
    exact .inr (faulted (f := .illegalOpcode) hd)
  | ok i =>
    obtain ⟨u, hu⟩ := exec_next i s.advance
    rcases exec_halt_cases hu with ⟨hh, _⟩ | ⟨f, _, ⟨rfl, n, rfl⟩ | ⟨rfl, rfl, hsp⟩ | ⟨rfl, ⟨n, rfl⟩, hsp⟩⟩
    · have hu' : u.halted = false := hh.trans hs
      rw [stepEvent_of_ok hs hd hu, endStep_of_running hu'] at h
      cases h
      exact .inl ⟨i, u, rfl, hu, hu', rfl⟩
    · exact .inr (faulted (f := .unsupportedMachineCall) ⟨n, hd⟩)
    · exact .inr (faulted (f := .stackUnderflow) ⟨hd, hsp⟩)
    · exact .inr (faulted (f := .stackOverflow) ⟨⟨n, hd⟩, hsp⟩)

/-- The `Step` event always answers a next state (R160; log entry 6). -/
theorem stepEvent_next (s : State) : ∃ t, stepEvent s = .next t := by
  rcases stepEvent_cases s with ⟨_, h⟩ | ⟨hs, i, hd, _⟩ | ⟨_, _, _, h⟩
  · exact ⟨s, h⟩
  · obtain ⟨u, hu⟩ := exec_next i s.advance
    exact ⟨_, stepEvent_of_ok hs hd hu⟩
  · exact ⟨_, h⟩

end stepEvent

/-! ### The statements on the cycle and on faults -/

/-- Settles O40. -/
theorem stepRunsTheDecodedInstruction : Obligations.StepRunsTheDecodedInstruction := by
  intro s t es i hs hnext hd hexec
  rw [← fetchAddr_eq_ofNat] at hd
  rw [← nextPc_eq_ofNat] at hexec
  rw [step_of_stepIsNext hnext]
  exact stepEvent_of_ok (s := s.setSchedule es) hs hd hexec

/-- Settles O41. -/
theorem illegalWordHalts : Obligations.IllegalWordHalts := by
  intro s es e hs hnext hd
  rw [step_of_stepIsNext hnext, stepEvent_of_error (s := s.setSchedule es) hs hd, ← fetchAddr_eq_ofNat, ← nextPc_eq_ofNat]
  rfl

/-- Settles O42: the entry of the condition that holds is the one taken, and an instruction that completes does not halt. -/
theorem stepHaltsExactlyOnTheFatalConditions : Obligations.StepHaltsExactlyOnTheFatalConditions := by
  intro s t es hs hnext h
  rw [step_of_stepIsNext hnext] at h
  have entry (f : Fault) (hf : Fatal s f) : t.halted = true ∧ t.faultCode = f.code := by
    rw [stepEvent_of_fatal (s := s.setSchedule es) hs (f := f) hf] at h
    cases h; exact ⟨rfl, rfl⟩
  refine ⟨⟨fun ht => ?_, fun ⟨f, hf⟩ => (entry f hf).1⟩, fun f hf => (entry f hf).2⟩
  rcases stepEvent_running_cases (s := s.setSchedule es) hs h with ⟨i, u, _, _, hu, rfl⟩ | ⟨f, hf, _⟩
  · cases ht.symm.trans hu
  · exact ⟨f, hf⟩

/-- Settles O43: a halted next state is a fault entry, which writes `pc` and the latches. -/
theorem faultEntryIsPrecise : Obligations.FaultEntryIsPrecise := by
  intro s t es hs hnext h ht
  rw [step_of_stepIsNext hnext] at h
  rcases stepEvent_running_cases (s := s.setSchedule es) hs h with ⟨i, u, _, _, hu, rfl⟩ | ⟨f, _, rfl⟩
  · cases ht.symm.trans hu
  · refine ⟨fetchAddr_toNat s, rfl, ?_, rfl, ((Unchanged.refl _ _).setPc _).setLatches rfl _ _ _ _⟩
    show (nextPc s.pc).toNat = (s.fetchAddr.toNat + 2) % 0x1000
    rw [nextPc_toNat, fetchAddr_toNat]; omega

theorem tickEvent_of_halted {s : State} (h : s.halted = true) : tickEvent s = s := if_pos h

/-- Settles O44. -/
theorem haltedStateIsAbsorbing : Obligations.HaltedStateIsAbsorbing := by
  intro s hs
  have hstep {es} (h : StepIsNext s es) : step s = .next (s.setSchedule es) :=
    (step_of_stepIsNext h).trans (stepEvent_of_halted hs)
  have htick {es} (h : s.schedule = .tick :: es) : step s = .next (s.setSchedule es) :=
    (step_of_tick h).trans (congrArg _ (tickEvent_of_halted hs))
  refine ⟨fun h => ?_, fun es h => hstep (.inl h), fun es h => htick h, fun t ht hrun => ?_⟩
  · rw [hstep (.inr ⟨h, rfl⟩), ← h]; rfl
  · have leaves (e : t.halted = s.halted) : ∃ image es, s.schedule = .reset image :: es := by
      rw [hs, hrun] at e; cases e
    rcases event_cases s with ⟨es, h⟩ | ⟨es, h⟩ | ⟨k, es, h⟩ | h
    · rw [hstep h] at ht; cases ht; exact leaves rfl
    · rw [htick h] at ht; cases ht; exact leaves rfl
    · rw [step_of_setKeys h] at ht; cases ht; exact leaves rfl
    · exact h

/-- Settles O45. -/
theorem everyEventAnswersANextState : Obligations.EveryEventAnswersANextState := by
  intro s himage
  rcases event_cases s with ⟨es, h⟩ | ⟨es, h⟩ | ⟨k, es, h⟩ | ⟨image, es, h⟩
  · rw [step_of_stepIsNext h]; exact stepEvent_next _
  · exact ⟨_, step_of_tick h⟩
  · exact ⟨_, step_of_setKeys h⟩
  · exact ⟨_, (step_of_reset h).trans (resetEvent_of_le (himage image es h) _)⟩

/-! ### A placed word (log entry 5) -/

theorem decodeWord_of_decodeTableWord {nbits w : Nat} {i : Instr} (h : decodeTableWord nbits w = some i) :
    decodeWord (BitVec.ofNat 16 (w % 2 ^ nbits)) = .ok i := by
  unfold decodeTableWord tableBytes bytesOfWord at h
  rw [decodeBytes, wordOfBytes_high_low] at h
  cases hd : decodeWord (BitVec.ofNat 16 (w % 2 ^ nbits)) with
  | ok j => rw [hd] at h; exact congrArg _ (Option.some.inj h)
  | error e => rw [hd] at h; cases h

theorem addr_ne_succ (a : Addr) : a ≠ a + 1 := by intro h; bv_omega

/-- Two bytes stored at an address are the word fetched there, also across the wrap (R41, R42). -/
theorem fetchWord_writeBytes (m : Memory) (a : Addr) (hi lo : Byte) :
    (m.writeBytes a [hi, lo]).fetchWord a = wordOfBytes hi lo := by
  rw [Memory.fetchWord, Memory.writeBytes, Memory.writeBytes, Memory.writeBytes, Memory.read_write_self,
    Memory.read_write_other _ _ (addr_ne_succ a), Memory.read_write_self]

theorem fetchWord_withFetchWord (s : State) (nbits w : Nat) :
    (s.withFetchWord nbits w).fetchWord = BitVec.ofNat 16 (w % 2 ^ nbits) :=
  (fetchWord_writeBytes s.memory s.fetchAddr _ _).trans (wordOfBytes_high_low _)

/-- Settles O46: the state with the word placed is not halted and has a `Step` event next, so the statement on the step
cycle applies to it. -/
theorem placedWordIsRunNext : Obligations.PlacedWordIsRunNext := by
  intro s t nbits w i hi hexec
  have hd : decodeWord (s.withFetchWord nbits w).fetchWord = .ok i := by
    rw [fetchWord_withFetchWord]; exact decodeWord_of_decodeTableWord hi
  rw [State.fetchWord, fetchAddr_eq_ofNat] at hd
  have hdelay : (s.withFetchWord nbits w).delay = s.delay := rfl
  rw [← hdelay]
  exact stepRunsTheDecodedInstruction (s.withFetchWord nbits w) t s.schedule i rfl (.inl rfl) hd hexec

end Sys2Proof.Machine
end

section
/-! SUPPORT. Registers (42_register_alu.md R111 to R122) and control transfer (41_control_flow.md R90 to R98). -/

open Sys2Proof.Stmt

namespace Sys2Proof.Machine

/-- Settles O3. -/
theorem loadsWriteTheirRegisterOnly : Obligations.LoadsWriteTheirRegisterOnly := fun s x y nn =>
  ⟨⟨_, exec_op6XNN s x nn, getElem_writeV_self s x nn, rfl, unchanged_writeV s x nn⟩,
   ⟨_, exec_op8XY0 s x y, getElem_writeV_self s x _, rfl, unchanged_writeV s x _⟩⟩

/-- Settles O4. -/
theorem addImmediateWrapsAndWritesNoFlag : Obligations.AddImmediateWrapsAndWritesNoFlag := fun s x nn =>
  ⟨_, exec_op7XNN s x nn, (congrArg BitVec.toNat (getElem_writeV_self s x _)).trans (sum8_toNat _ _), rfl,
    unchanged_writeV s x _⟩

/-- Settles O5: bit `k` of each of the three operations on bytes is the operation on bit `k`. -/
theorem logicIsBitwiseAndWritesNoFlag : Obligations.LogicIsBitwiseAndWritesNoFlag := by
  intro s x y
  refine ⟨⟨_, exec_op8XY1 s x y, fun k _ => ?_, rfl, unchanged_writeV s x _⟩,
    ⟨_, exec_op8XY2 s x y, fun k _ => ?_, rfl, unchanged_writeV s x _⟩,
    ⟨_, exec_op8XY3 s x y, fun k _ => ?_, rfl, unchanged_writeV s x _⟩⟩ <;> rw [getElem_writeV_self]
  · exact BitVec.getLsbD_or
  · exact BitVec.getLsbD_and
  · exact BitVec.getLsbD_xor

/-! ### Results with a flag -/

section flags
variable (s : State) (x : RegIdx) (b : Byte) (c : Bool)

theorem writeResultFlag_flag_toNat : ((s.writeResultFlag x b c).V[vF]).toNat = if c = true then 1 else 0 := by
  rw [writeResultFlag_flag, flagByte_toNat]

theorem writeResultFlag_decide_toNat (p : Prop) [Decidable p] :
    ((s.writeResultFlag x b (decide p)).V[vF]).toNat = if p then 1 else 0 := by
  rw [writeResultFlag_flag_toNat]; simp only [decide_eq_true_iff]

theorem writeResultFlag_result_toNat (hx : x ≠ vF) : ((s.writeResultFlag x b c).V[x]).toNat = b.toNat :=
  congrArg BitVec.toNat (writeResultFlag_result s b c hx)

end flags

/-- Settles O6. -/
theorem addWritesCarryLast : Obligations.AddWritesCarryLast := fun s x y =>
  ⟨_, exec_op8XY4 s x y, writeResultFlag_decide_toNat s x _ _,
    fun hx => (writeResultFlag_result_toNat s x _ _ hx).trans (sum8_toNat _ _), rfl, unchanged_writeResultFlag s x _ _⟩

/-- Settles O7: both subtractions write the same function of minuend and subtrahend. -/
theorem subtractsWriteNotBorrowLast : Obligations.SubtractsWriteNotBorrowLast := by
  intro s x y
  have difference (a b : Byte) (hx : x ≠ vF) : (((s.writeResultFlag x (diff8 a b) (notBorrow a b)).V[x]).toNat : Int) =
      ((a.toNat : Int) - b.toNat) % 256 := by
    rw [writeResultFlag_result_toNat s x _ _ hx, diff8_toNat]
  exact ⟨⟨_, exec_op8XY5 s x y, writeResultFlag_decide_toNat s x _ _, difference _ _, rfl,
      unchanged_writeResultFlag s x _ _⟩,
    ⟨_, exec_op8XY7 s x y, writeResultFlag_decide_toNat s x _ _, difference _ _, rfl,
      unchanged_writeResultFlag s x _ _⟩⟩

/-- Settles O8. -/
theorem shiftsTakeTheirSourceFromVY : Obligations.ShiftsTakeTheirSourceFromVY := by
  intro s x y
  refine ⟨⟨_, exec_op8XY6 s x y, ?_, fun hx => ?_, rfl, unchanged_writeResultFlag s x _ _⟩,
    ⟨_, exec_op8XYE s x y, ?_, fun hx => ?_, rfl, unchanged_writeResultFlag s x _ _⟩⟩
  · rw [writeResultFlag_flag, flagByte_bitOutRight_toNat]
  · rw [writeResultFlag_result_toNat s x _ _ hx, shiftRight1_toNat]
  · rw [writeResultFlag_flag, flagByte_bitOutLeft_toNat]
  · rw [writeResultFlag_result_toNat s x _ _ hx, shiftLeft1_toNat]

/-- Settles O9. -/
theorem randomByteIsMaskedAndUsedOnce : Obligations.RandomByteIsMaskedAndUsedOnce := fun s x nn =>
  ⟨_, exec_opCXNN s x nn, getElem_writeV_self s x _, rfl, rfl,
    ((Unchanged.refl _ s).writeV (List.mem_singleton_self x) _).setRndIndex rfl _⟩

/-! ### Calls, returns and machine-code calls -/

/-- The entries after a push (R17). -/
theorem getElem_push {s : State} (h : s.sp.val < 16) (v : Word) (k : Fin 16) :
    (s.stack.set s.sp.val v h)[k] = if k.val = s.sp.val then v else s.stack[k] := by
  show (s.stack.set s.sp.val v h)[k.val] = _
  rw [Vector.getElem_set]; simp only [eq_comm]; rfl

/-- Settles O11. -/
theorem callPushesTheAdvancedPc : Obligations.CallPushesTheAdvancedPc := fun s nnn h =>
  ⟨_, exec_op2NNN_of_room s nnn h, zext16_toNat nnn, rfl, getElem_push h s.pc,
    ((Unchanged.refl _ s).setStack rfl _ _).setPc _⟩

/-- Settles O12. -/
theorem callOnAFullStackHalts : Obligations.CallOnAFullStackHalts := by
  intro s nnn h
  have hw : (encode (.op2NNN nnn)).toNat = 0x2000 + nnn.toNat := encodeA_toNat 0x2 nnn
  exact ⟨_, exec_op2NNN_of_full s nnn h, hw ▸ halts_raise _ _ s⟩

theorem exec_op00EE_of_sp {s : State} {k : Fin 16} (h : s.sp.val = k.val + 1) :
    exec .op00EE s = .next ((s.setStack s.stack k.castSucc).setPc s.stack[k]) := by
  have hk : s.sp.val - 1 = k.val := by omega
  rw [exec_op00EE_of_entry s (by omega)]
  simp only [hk]; rfl

/-- Settles O13. -/
theorem returnPopsTheTopEntry : Obligations.ReturnPopsTheTopEntry := fun s _ h =>
  ⟨_, exec_op00EE_of_sp h, rfl, rfl, rfl, ((Unchanged.refl _ s).setStack rfl _ _).setPc _⟩

/-- Settles O14. -/
theorem returnOnAnEmptyStackHalts : Obligations.ReturnOnAnEmptyStackHalts := fun s h =>
  ⟨_, exec_op00EE_of_empty s h, halts_raise .stackUnderflow (encode .op00EE) s⟩

/-- Settles O15. -/
theorem machineCallHalts : Obligations.MachineCallHalts := by
  intro s nnn
  have hw : (encode (.op0NNN nnn)).toNat = nnn.toNat := (encodeA_toNat 0x0 nnn).trans (Nat.zero_add _)
  exact ⟨_, exec_op0NNN s nnn, hw ▸ halts_raise _ _ s⟩

/-- Settles O16: the return pops the place that the call pushed to, and the entries below it are those before the call. -/
theorem returnUndoesCall : Obligations.ReturnUndoesCall := by
  intro s t u nnn hroom ht hstack hsp
  rw [exec_op2NNN_of_room s nnn hroom] at ht
  cases ht
  have hu : u.sp.val = (⟨s.sp.val, hroom⟩ : Fin 16).val + 1 := congrArg Fin.val hsp
  have entry (k : Fin 16) : u.stack[k] = if k.val = s.sp.val then s.pc else s.stack[k] := by
    rw [hstack]; exact getElem_push hroom s.pc k
  exact ⟨_, exec_op00EE_of_sp hu, (entry _).trans (if_pos rfl), Fin.ext rfl,
    fun k hk => (entry k).trans (if_neg (Nat.ne_of_lt hk))⟩

/-! ### Skips -/

/-- Settles O17: each skip is one `skipIf` of its comparison. -/
theorem skipsAdvanceByTwoExactlyOnTheirCondition : Obligations.SkipsAdvanceByTwoExactlyOnTheirCondition := fun s x y nn u =>
  ⟨⟨_, exec_op3XNN s x nn, unchanged_skipIf s _, fun h => skipIf_pc_of_true s (beq_iff_eq.mpr h),
      fun h => skipIf_pc_of_false s (beq_false_of_ne h)⟩,
   ⟨_, exec_op4XNN s x nn, unchanged_skipIf s _, fun h => skipIf_pc_of_true s (bne_iff_ne.mpr h),
      fun h => skipIf_pc_of_false s (bne_eq_false_iff_eq.mpr h)⟩,
   ⟨_, exec_op5XY0 s x y u, unchanged_skipIf s _, fun h => skipIf_pc_of_true s (beq_iff_eq.mpr h),
      fun h => skipIf_pc_of_false s (beq_false_of_ne h)⟩,
   ⟨_, exec_op9XY0 s x y u, unchanged_skipIf s _, fun h => skipIf_pc_of_true s (bne_iff_ne.mpr h),
      fun h => skipIf_pc_of_false s (bne_eq_false_iff_eq.mpr h)⟩⟩

/-- Settles O18: the key index is the low four bits as a number. -/
theorem keySkipsTestTheLowFourBits : Obligations.KeySkipsTestTheLowFourBits := by
  intro s x
  rw [← keyIndex_eq]
  exact ⟨⟨_, exec_opEX9E s x, unchanged_skipIf s _, skipIf_pc_of_true s, skipIf_pc_of_false s⟩,
    ⟨_, exec_opEXA1 s x, unchanged_skipIf s _, fun h => skipIf_pc_of_true s (congrArg not h),
      fun h => skipIf_pc_of_false s (congrArg not h)⟩⟩

end Sys2Proof.Machine
end

section
/-! SUPPORT. The index register and memory (43_index_memory.md R131, R133, R135; 20_memory.md R41, R42), and the keypad and
the timers as instructions see them (45_keypad_timers.md R153 to R156). -/

namespace Sys2Proof.Machine

/-- Settles O20: the sum is of the old `I` and the old `V[X]`, since `I` is written first and VF last. -/
theorem indexAddWritesOverflow : Obligations.IndexAddWritesOverflow := by
  intro s x
  refine ⟨_, exec_opFX1E s x, indexPlus_toNat s.I _, ?_, rfl,
    ((Unchanged.refl _ s).setI rfl _).writeV (List.mem_singleton_self vF) _⟩
  rw [writeFlag_eq, getElem_writeV_self, flagByte_toNat, indexOverflow]
  simp only [decide_eq_true_iff]

/-- Settles O21: the three addresses are distinct, so each digit is still there after the later stores. -/
theorem decimalDigitsAreStored : Obligations.DecimalDigitsAreStored := by
  intro s x
  have h01 : ea s.I 0 ≠ ea s.I 1 := fun e => absurd (ea_inj (by omega) (by omega) e) (by omega)
  have h02 : ea s.I 0 ≠ ea s.I 2 := fun e => absurd (ea_inj (by omega) (by omega) e) (by omega)
  have h12 : ea s.I 1 ≠ ea s.I 2 := fun e => absurd (ea_inj (by omega) (by omega) e) (by omega)
  refine ⟨_, exec_opFX33 s x, ?_, ?_, ?_, rfl,
    (((Unchanged.refl _ s).writeByte (by simp) _).writeByte (by simp) _).writeByte (by simp) _⟩
  · rw [readByte_writeByte, if_neg h02, readByte_writeByte, if_neg h01, readByte_writeByte, if_pos rfl, hundreds_toNat]
  · rw [readByte_writeByte, if_neg h12, readByte_writeByte, if_pos rfl, tens_toNat]
  · rw [readByte_writeByte, if_pos rfl, ones_toNat]

/-- What a load of registers 0 to `x` leaves in register `k` (R135). -/
theorem loadRegs_getElem_of_le {m : Memory} {base : Word} {V : Vector Byte 16} {x k : RegIdx} (h : k ≤ x) :
    (loadRegs m base (x.val + 1) V)[k] = m.read (ea base k.val) :=
  (loadRegs_getElem m base (x.val + 1) x.isLt V k.val k.isLt).trans (if_pos (Nat.lt_succ_of_le h))

theorem loadRegs_getElem_of_not_le {m : Memory} {base : Word} {V : Vector Byte 16} {x k : RegIdx} (h : ¬ k ≤ x) :
    (loadRegs m base (x.val + 1) V)[k] = V[k] :=
  (loadRegs_getElem m base (x.val + 1) x.isLt V k.val k.isLt).trans (if_neg fun hk => h (Nat.le_of_lt_succ hk))

/-- The frame of a load: the registers loaded and `I`. -/
theorem unchanged_loadRegs (s : State) (x : RegIdx) :
    Unchanged { regs := (List.finRange 16).filter (fun k => decide (k ≤ x)), index := true } s
      ((s.setRegs (loadRegs s.memory s.I (x.val + 1) s.V)).setI (indexPlus s.I (x.val + 1))) :=
  ((Unchanged.refl _ s).setRegs fun r (hr : r ∉ (List.finRange 16).filter fun k => decide (k ≤ x)) =>
    loadRegs_getElem_of_not_le fun hle => hr (List.mem_filter.mpr ⟨List.mem_finRange r, decide_eq_true hle⟩)).setI rfl _

/-- Settles O23. -/
theorem registersAreLoaded : Obligations.RegistersAreLoaded := fun s x =>
  ⟨_, exec_opFX65 s x, fun _ => loadRegs_getElem_of_le, indexPlus_toNat s.I (x.val + 1), rfl, unchanged_loadRegs s x⟩

/-- The bytes that a store of registers 0 to `x` leaves (R134). -/
theorem storeRegs_read_of_le {V : Vector Byte 16} {base : Word} {m : Memory} {x k : RegIdx} (h : k ≤ x) :
    (storeRegs V base (x.val + 1) m).read (ea base k.val) = V[k] :=
  storeRegs_read V base (x.val + 1) x.isLt m k.val (Nat.lt_succ_of_le h)

/-- Settles O24: the load reads `EA(k)`, where the store put `V[k]`. -/
theorem loadAfterStoreGivesTheRegistersBack : Obligations.LoadAfterStoreGivesTheRegistersBack := by
  intro s t u x ht hm hI
  rw [exec_opFX55] at ht
  cases ht
  refine ⟨_, exec_opFX65 u x, fun k hk => ?_⟩
  calc (loadRegs u.memory u.I (x.val + 1) u.V)[k]
      = u.memory.read (ea u.I k.val) := loadRegs_getElem_of_le hk
    _ = (storeRegs s.V s.I (x.val + 1) s.memory).read (ea s.I k.val) := by rw [hm, hI]; rfl
    _ = s.V[k] := storeRegs_read_of_le hk

/-- A fetched word as a number (R41, R42). -/
theorem fetchWord_toNat (m : Memory) (a : Addr) :
    (m.fetchWord a).toNat = (m.read a).toNat * 256 + (m.read (a + 1)).toNat := wordOfBytes_toNat _ _

theorem ea_succ (base : Word) (k : Nat) : ea base (k + 1) = ea base k + 1 := by
  apply BitVec.eq_of_toNat_eq
  rw [ea_toNat, BitVec.toNat_add, ea_toNat, show (1 : Addr).toNat = 1 from rfl]; omega

/-- Settles O25: the second byte of the fetch at `EA(k)` is at `EA(k + 1)`. -/
theorem storedBytesAreFetched : Obligations.StoredBytesAreFetched := by
  intro s t x k h ht
  rw [exec_opFX55] at ht
  cases ht
  have hk : k ≤ x := Nat.le_of_succ_le h
  have hk1 : (⟨k.val + 1, by omega⟩ : RegIdx) ≤ x := h
  rw [fetchWord_toNat, ← ea_succ]
  exact congrArg₂ (fun a b : Byte => a.toNat * 256 + b.toNat) (storeRegs_read_of_le hk) (storeRegs_read_of_le hk1)

/-- Settles O26. -/
theorem fetchIsBigEndianAndWraps : Obligations.FetchIsBigEndianAndWraps := by
  intro m a
  have hnext : a + 1 = BitVec.ofNat 12 ((a.toNat + 1) % 0x1000) := by
    apply BitVec.eq_of_toNat_eq
    rw [BitVec.toNat_add, BitVec.toNat_ofNat, show (1 : Addr).toNat = 1 from rfl]; omega
  rw [← hnext, fetchWord_toNat]

/-! ### Keypad and timers -/

/-- Settles O32. -/
theorem waitKeyStoresTheLowestKey : Obligations.WaitKeyStoresTheLowestKey := by
  intro s x
  refine ⟨fun h => ?_, fun h => ⟨_, exec_opFX0A_of_none s x h, prevPc_toNat s.pc, unchanged_setPc s _⟩⟩
  obtain ⟨hlt, hdown, hup⟩ := lowestKey_spec h
  refine ⟨_, exec_opFX0A_of_key s x h, ⟨lowestKey s.keypad, hlt, hdown, hup, ?_⟩, rfl, unchanged_writeV s x _⟩
  rw [getElem_writeV_self, BitVec.toNat_ofNat]; omega

/-- Settles O34. -/
theorem timerTransfers : Obligations.TimerTransfers := fun s x =>
  ⟨⟨_, exec_opFX07 s x, getElem_writeV_self s x _, rfl, unchanged_writeV s x _⟩,
   ⟨_, exec_opFX15 s x, rfl, rfl, (Unchanged.refl _ s).setDelay rfl _⟩,
   ⟨_, exec_opFX18 s x, rfl, rfl, (Unchanged.refl _ s).setSound rfl _⟩⟩

end Sys2Proof.Machine
end

section
/-! SUPPORT. Drawing (44_display.md R140 to R143). Each part of a draw, a pixel, a row by pixels, a row through the row
buffer, the whole sprite, toggles a set of pixels; `Draws` says so, and the sets of consecutive parts add up. -/

open Sys2Proof.Stmt

namespace Sys2Proof.Machine

/-! ### Screens by their pixels -/

theorem Screen.pixel_of_lt (scr : Screen) {y : Nat} (hy : y < 32) (x : Nat) : scr.pixel x y = scr[y].getMsbD x :=
  dif_pos hy

theorem Screen.ext_pixel {a b : Screen} (h : ∀ c < 64, ∀ r < 32, a.pixel c r = b.pixel c r) : a = b := by
  refine Vector.ext fun r hr => BitVec.eq_of_getMsbD_eq fun c hc => ?_
  rw [← Screen.pixel_of_lt a hr, ← Screen.pixel_of_lt b hr]
  exact h c hc r hr

/-- Settles O31: column `x` is the bit at `x` from the left of its row. -/
theorem flatScreenIsRowMajor : Obligations.FlatScreenIsRowMajor := by
  intro scr x y hx
  have hmod : (y.val * 64 + x) % 64 = x := by omega
  have hdiv : (y.val * 64 + x) / 64 = y.val := by omega
  refine ⟨by rw [Screen.flat, hmod, hdiv], ?_⟩
  have hlast : 64 - 1 - x = 63 - x := by omega
  rw [Screen.pixel_of_lt scr y.isLt, BitVec.getMsbD_eq_getLsbD, hlast, decide_eq_true hx, Bool.true_and]
  rfl

/-! ### Toggling a set of pixels -/

/-- The draw `d` becomes `d'` when the pixels that `B` names are toggled: a pixel changes where `B` says so, and the
collision bit is set where one of them was lit (R142). -/
structure Draws (B : Nat → Nat → Bool) (d d' : Draw) : Prop where
  pixel : ∀ c < 64, ∀ r < 32, d'.1.pixel c r = (d.1.pixel c r ^^ B c r)
  collision : d'.2 = true ↔ d.2 = true ∨ ∃ c < 64, ∃ r < 32, B c r = true ∧ d.1.pixel c r = true

section draws
variable {A B : Nat → Nat → Bool} {d d' d'' : Draw}

/-- What is drawn is determined by the set of pixels toggled. -/
theorem Draws.unique (h' : Draws B d d') (h'' : Draws B d d'') : d' = d'' :=
  Prod.ext (Screen.ext_pixel fun c hc r hr => (h'.pixel c hc r hr).trans (h''.pixel c hc r hr).symm)
    (Bool.eq_iff_iff.mpr (h'.collision.trans h''.collision.symm))

/-- Nothing is drawn where no pixel of the screen is named. -/
theorem Draws.refl_of_none (h : ∀ c < 64, ∀ r < 32, B c r = false) : Draws B d d where
  pixel c hc r hr := by rw [h c hc r hr, Bool.xor_false]
  collision := by
    refine ⟨.inl, Or.rec id ?_⟩
    rintro ⟨c, hc, r, hr, hB, _⟩
    rw [h c hc r hr] at hB; cases hB

theorem Draws.congr (h : Draws A d d') (hAB : ∀ c < 64, ∀ r < 32, A c r = B c r) : Draws B d d' where
  pixel c hc r hr := by rw [← hAB c hc r hr]; exact h.pixel c hc r hr
  collision := by
    refine h.collision.trans (or_congr_right ?_)
    constructor <;> rintro ⟨c, hc, r, hr, hB, hp⟩
    · exact ⟨c, hc, r, hr, (hAB c hc r hr).symm.trans hB, hp⟩
    · exact ⟨c, hc, r, hr, (hAB c hc r hr).trans hB, hp⟩

/-- Two draws one after the other on pixels that are not shared toggle all of them: the second finds its own pixels as
they were before the first. -/
theorem Draws.trans (h : Draws A d d') (h' : Draws B d' d'') (hAB : ∀ c r, A c r = true → B c r = false) :
    Draws (fun c r => A c r || B c r) d d'' where
  pixel c hc r hr := by
    rw [h'.pixel c hc r hr, h.pixel c hc r hr]
    cases hA : A c r
    · simp
    · simp [hAB c r hA]
  collision := by
    have seen {c r} (hc : c < 64) (hr : r < 32) (hB : B c r = true) : d'.1.pixel c r = d.1.pixel c r := by
      have hA : A c r = false := Bool.eq_false_iff.mpr fun hA => by rw [hAB c r hA] at hB; cases hB
      rw [h.pixel c hc r hr, hA, Bool.xor_false]
    rw [h'.collision, h.collision, or_assoc]
    refine or_congr_right ⟨?_, ?_⟩
    · rintro (⟨c, hc, r, hr, hA, hp⟩ | ⟨c, hc, r, hr, hB, hp⟩)
      · exact ⟨c, hc, r, hr, Bool.or_eq_true_iff.mpr (.inl hA), hp⟩
      · exact ⟨c, hc, r, hr, Bool.or_eq_true_iff.mpr (.inr hB), (seen hc hr hB).symm.trans hp⟩
    · rintro ⟨c, hc, r, hr, hAB, hp⟩
      rcases Bool.or_eq_true_iff.mp hAB with hA | hB
      · exact .inl ⟨c, hc, r, hr, hA, hp⟩
      · exact .inr ⟨c, hc, r, hr, hB, (seen hc hr hB).trans hp⟩

end draws

/-! ### One row, by pixels (R142) -/

/-- The pixels of the first `k` columns of the sprite byte `b` at column `vx` of row `y`. -/
def rowBits (b : Byte) (vx y k c r : Nat) : Bool := decide (r = y ∧ vx ≤ c ∧ c < vx + k) && b.getMsbD (c - vx)

/-- The one pixel of column `col` of the sprite byte `b`. -/
def columnBits (b : Byte) (vx y col c r : Nat) : Bool := decide (r = y ∧ c = vx + col) && b.getMsbD col

/-- The pixels of `k + 1` columns are those of the first `k` and that of the next. -/
theorem rowBits_succ (b : Byte) (vx y k c r : Nat) :
    (rowBits b vx y k c r || columnBits b vx y k c r) = rowBits b vx y (k + 1) c r := by
  by_cases hc : c = vx + k
  · subst hc
    simp [rowBits, columnBits]
  · have : c < vx + (k + 1) ↔ c < vx + k := by omega
    simp [rowBits, columnBits, hc, this]

theorem rowBits_columnBits_disjoint (b : Byte) (vx y k c r : Nat) (h : rowBits b vx y k c r = true) :
    columnBits b vx y k c r = false := by
  simp only [rowBits, Bool.and_eq_true, decide_eq_true_iff] at h
  have : c ≠ vx + k := by omega
  simp [columnBits, this]

theorem drawPixel_draws (b : Byte) (vx : Nat) {y : Nat} (hy : y < 32) (d : Draw) (col : Nat) :
    Draws (columnBits b vx y col) d (drawPixel b vx y d col) := by
  unfold drawPixel
  split
  case isTrue h =>
    obtain ⟨hx, hb⟩ := h
    have hx : vx + col < 64 := Nat.lt_succ_of_le hx
    constructor
    · intro c hc r _
      rw [Screen.pixel_toggle d.1 hx hy hc, columnBits, hb]
      simp [Bool.and_comm]
    · simp only [columnBits, hb, Bool.or_eq_true, Bool.and_true, decide_eq_true_iff]
      refine or_congr_right ⟨fun hp => ⟨_, hx, y, hy, ⟨rfl, rfl⟩, hp⟩, ?_⟩
      rintro ⟨_, _, _, _, ⟨rfl, rfl⟩, hp⟩
      exact hp
  case isFalse h =>
    refine Draws.refl_of_none fun c hc r _ => ?_
    simp only [columnBits, Bool.and_eq_false_imp, decide_eq_true_iff]
    rintro ⟨-, rfl⟩
    exact Bool.eq_false_iff.mpr fun hb => h ⟨Nat.le_of_lt_succ hc, hb⟩

theorem foldl_drawPixel_draws (b : Byte) (vx : Nat) {y : Nat} (hy : y < 32) (d : Draw) (k : Nat) :
    Draws (rowBits b vx y k) d ((List.range k).foldl (drawPixel b vx y) d) := by
  induction k with
  | zero => exact Draws.refl_of_none fun c _ r _ => by simp [rowBits]
  | succ k ih =>
    rw [List.range_succ, List.foldl_append]
    exact (ih.trans (drawPixel_draws b vx hy _ k) (rowBits_columnBits_disjoint b vx y k)).congr
      fun c _ r _ => rowBits_succ b vx y k c r

/-! ### The sprite, row by row -/

/-- The pixels of row `row` of a sprite at `(vx, vy)`. -/
def spriteRow (m : Memory) (base : Word) (vx vy row : Nat) : Nat → Nat → Bool :=
  rowBits (m.read (ea base row)) vx (vy + row) 8

/-- The pixels of the first `n` rows of a sprite at `(vx, vy)`: `spriteBit` of the statements, of a memory. -/
def spriteBits (m : Memory) (base : Word) (vx vy n c r : Nat) : Bool :=
  decide (vx ≤ c ∧ c < vx + 8 ∧ vy ≤ r ∧ r < vy + n) && (m.read (ea base (r - vy))).getMsbD (c - vx)

theorem spriteBit_eq (s : State) (vx vy n : Nat) : spriteBit s vx vy n = spriteBits s.memory s.I vx vy n := rfl

section sprite
variable (m : Memory) (base : Word) (vx vy : Nat)

theorem spriteBits_succ (n c r : Nat) :
    (spriteBits m base vx vy n c r || spriteRow m base vx vy n c r) = spriteBits m base vx vy (n + 1) c r := by
  by_cases hr : r = vy + n
  · subst hr
    simp [spriteBits, spriteRow, rowBits]
  · have : r < vy + (n + 1) ↔ r < vy + n := by omega
    simp [spriteBits, spriteRow, rowBits, hr, this]

theorem spriteBits_spriteRow_disjoint (n c r : Nat) (h : spriteBits m base vx vy n c r = true) :
    spriteRow m base vx vy n c r = false := by
  simp only [spriteBits, Bool.and_eq_true, decide_eq_true_iff] at h
  have : r ≠ vy + n := by omega
  simp [spriteRow, rowBits, this]

theorem spriteRow_below {row : Nat} (h : ¬ vy + row < 32) : ∀ c < 64, ∀ r < 32, spriteRow m base vx vy row c r = false := by
  intro c _ r hr
  have : r ≠ vy + row := by omega
  simp [spriteRow, rowBits, this]

theorem drawRow_draws (d : Draw) (row : Nat) :
    Draws (spriteRow m base vx vy row) d (drawRow m base vx vy d row) := by
  unfold drawRow
  split
  case isTrue h => exact foldl_drawPixel_draws _ vx (Nat.lt_succ_of_le h) d 8
  case isFalse h => exact Draws.refl_of_none (spriteRow_below m base vx vy (by omega))

/-- R142: the sprite toggles the pixels that its 1 bits fall on. -/
theorem drawSprite_draws (n : Nat) (scr : Screen) :
    Draws (spriteBits m base vx vy n) (scr, false) (drawSprite m base vx vy n scr) := by
  unfold drawSprite
  induction n with
  | zero => exact Draws.refl_of_none fun c _ r _ => by simp [spriteBits]
  | succ n ih =>
    rw [List.range_succ, List.foldl_append]
    exact (ih.trans (drawRow_draws m base vx vy _ n) (spriteBits_spriteRow_disjoint m base vx vy n)).congr
      fun c _ r _ => spriteBits_succ m base vx vy n c r

/-! ### The row buffer (R143) -/

theorem bitVec_ne_zero_iff {w : Nat} (v : BitVec w) : v ≠ 0 ↔ ∃ c < w, v.getMsbD c = true := by
  constructor
  · intro h
    by_contra hno
    refine h (BitVec.eq_of_getMsbD_eq fun c hc => ?_)
    exact (Bool.eq_false_iff.mpr fun hv => hno ⟨c, hc, hv⟩).trans BitVec.getMsbD_zero.symm
  · rintro ⟨c, _, hv⟩ rfl
    exact Bool.false_ne_true (BitVec.getMsbD_zero.symm.trans hv)

/-- The bits of a row mask: the sprite byte from column `vx` on, clipped at the right edge. -/
theorem getMsbD_rowMask (b : Byte) {c : Nat} (hc : c < 64) :
    (rowMask b vx).getMsbD c = (decide (vx ≤ c ∧ c < vx + 8) && b.getMsbD (c - vx)) := by
  unfold rowMask
  split
  case isTrue h =>
    simp only [BitVec.getMsbD_eq_getLsbD, BitVec.getLsbD_setWidth, BitVec.getLsbD_ushiftRight, BitVec.getLsbD_shiftLeft]
    have place (hle : vx ≤ c) : vx + 8 + (64 - 1 - c) - 64 = 8 - 1 - (c - vx) := by omega
    rw [Bool.eq_iff_iff]
    simp only [Bool.and_eq_true, decide_eq_true_iff, Bool.not_eq_true', decide_eq_false_iff_not]
    constructor
    · rintro ⟨-, -, ⟨hlo, hhi⟩, -, hb⟩
      exact ⟨⟨by omega, by omega⟩, by omega, place (by omega) ▸ hb⟩
    · rintro ⟨⟨hlo, hhi⟩, -, hb⟩
      exact ⟨hc, by omega, ⟨by omega, by omega⟩, by omega, (place hlo).symm ▸ hb⟩
  case isFalse h =>
    have : ¬ vx ≤ c := by omega
    simp [this]

theorem bufferRow_draws (d : Draw) (row : Nat) :
    Draws (spriteRow m base vx vy row) d (bufferRow m base vx vy d row) := by
  unfold bufferRow
  split
  case isTrue h =>
    generalize hb : m.read (ea base row) = b
    have mask {c r} (hc : c < 64) : spriteRow m base vx vy row c r =
        (decide (r = vy + row) && (rowMask b vx).getMsbD c) := by
      rw [getMsbD_rowMask vx b hc, spriteRow, rowBits, hb]
      simp [Bool.and_assoc]
    constructor
    · intro c hc r hr
      rw [mask hc, Screen.pixel_of_lt _ hr, Screen.pixel_of_lt _ hr, Vector.getElem_set]
      by_cases e : vy + row = r
      · subst e; simp
      · simp [e, Ne.symm e]
    · rw [Bool.or_eq_true, bne_iff_ne, bitVec_ne_zero_iff]
      refine or_congr_right ⟨?_, ?_⟩
      · rintro ⟨c, hc, hp⟩
        rw [BitVec.getMsbD_and, Bool.and_eq_true] at hp
        exact ⟨c, hc, vy + row, h, by simp [mask hc, hp.2], (Screen.pixel_of_lt _ h c).trans hp.1⟩
      · rintro ⟨c, hc, r, hr, hB, hp⟩
        rw [mask hc, Bool.and_eq_true, decide_eq_true_iff] at hB
        obtain ⟨rfl, hB⟩ := hB
        rw [Screen.pixel_of_lt _ h] at hp
        exact ⟨c, hc, by rw [BitVec.getMsbD_and, hp, hB]; rfl⟩
  case isFalse h => exact Draws.refl_of_none (spriteRow_below m base vx vy h)

theorem bufferRow_eq_drawRow : bufferRow m base vx vy = drawRow m base vx vy :=
  funext fun d => funext fun row => (bufferRow_draws m base vx vy d row).unique (drawRow_draws m base vx vy d row)

end sprite

/-- Settles O30: each row is the same draw in both ways, and both go through the rows in the same order. -/
theorem rowBufferComputesTheDraw : Obligations.RowBufferComputesTheDraw := by
  intro m base vx vy n scr
  rw [bufferSprite, drawSprite, bufferRow_eq_drawRow]

/-! ### The instruction -/

section instruction
variable {s t : State} {x y : RegIdx} {n : BitVec 4}

/-- What `DXYN` answers, by the pixels that it toggles. -/
theorem draws_of_exec_opDXYN (h : exec (.opDXYN x y n) s = .next t) :
    ∃ c, t.V[vF] = flagByte c ∧
      Draws (spriteBit s s.V[x].toNat s.V[y].toNat n.toNat) (s.screen, false) (t.screen, c) := by
  rw [exec_opDXYN] at h
  cases h
  exact ⟨_, getElem_writeV_self _ _ _, drawSprite_draws s.memory s.I _ _ n.toNat s.screen⟩

theorem unchanged_of_exec_opDXYN (h : exec (.opDXYN x y n) s = .next t) :
    Unchanged { regs := [vF], screen := true } s t := by
  rw [exec_opDXYN] at h
  cases h
  exact ((Unchanged.refl _ s).setScreen rfl _).writeV (List.mem_singleton_self vF) _

theorem memory_of_exec_opDXYN (h : exec (.opDXYN x y n) s = .next t) : t.memory = s.memory := by
  rw [exec_opDXYN] at h
  cases h
  rfl

theorem pc_of_exec_opDXYN (h : exec (.opDXYN x y n) s = .next t) : t.pc = s.pc := by
  rw [exec_opDXYN] at h
  cases h
  rfl

end instruction

theorem flagByte_eq_one_iff (c : Bool) : flagByte c = 1 ↔ c = true := by cases c <;> decide

/-- Settles O28: the pixels toggled are those of the sprite, and a pixel toggled goes out exactly where it was lit. -/
theorem drawXorsTheSpriteAndReportsCollision : Obligations.DrawXorsTheSpriteAndReportsCollision := by
  intro s x y n
  obtain ⟨t, ht⟩ := exec_next (.opDXYN x y n) s
  obtain ⟨f, hf, hd⟩ := draws_of_exec_opDXYN ht
  refine ⟨t, ht, hd.pixel, ?_, pc_of_exec_opDXYN ht, unchanged_of_exec_opDXYN ht⟩
  cases f with
  | true =>
    obtain h | ⟨c, hc, r, hr, hB, hp⟩ := hd.collision.mp rfl
    · cases h
    · exact .inl ⟨hf, c, hc, r, hr, hp, by rw [hd.pixel c hc r hr, hB, hp]; rfl⟩
  | false =>
    refine .inr ⟨hf, fun c hc r hr hp => ?_⟩
    have hB : spriteBit s s.V[x].toNat s.V[y].toNat n.toNat c r = false := Bool.eq_false_iff.mpr fun hB =>
      Bool.false_ne_true (hd.collision.mpr (.inr ⟨c, hc, r, hr, hB, hp⟩))
    rw [hd.pixel c hc r hr, hB, hp]; rfl

/-- Settles O29: the second draw toggles the same pixels, since neither the coordinates nor the sprite's bytes have changed,
and it finds lit exactly those that the first one lit. -/
theorem drawingTwiceRestoresTheScreen : Obligations.DrawingTwiceRestoresTheScreen := by
  intro s t x y n hx hy ht
  obtain ⟨u, hu⟩ := exec_next (.opDXYN x y n) t
  obtain ⟨_, _, hd⟩ := draws_of_exec_opDXYN ht
  obtain ⟨f, hf, hd'⟩ := draws_of_exec_opDXYN hu
  have frame := unchanged_of_exec_opDXYN ht
  have same : spriteBit t t.V[x].toNat t.V[y].toNat n.toNat = spriteBit s s.V[x].toNat s.V[y].toNat n.toNat := by
    rw [frame.regs x (by simpa using hx), frame.regs y (by simpa using hy), spriteBit_eq, spriteBit_eq,
      memory_of_exec_opDXYN ht, frame.index rfl]
  rw [same] at hd'
  refine ⟨u, hu, Screen.ext_pixel fun c hc r hr => ?_, ?_⟩
  · rw [hd'.pixel c hc r hr, hd.pixel c hc r hr, Bool.xor_assoc, Bool.xor_self, Bool.xor_false]
  · rw [hf, flagByte_eq_one_iff, hd'.collision]
    simp only [Bool.false_eq_true, false_or]
    have lit {c r} (hc : c < 64) (hr : r < 32) (hB : spriteBit s s.V[x].toNat s.V[y].toNat n.toNat c r = true) :
        t.screen.pixel c r = true ↔ s.screen.pixel c r = false := by
      rw [hd.pixel c hc r hr, hB, Bool.xor_true, Bool.not_eq_true']
    constructor <;> rintro ⟨c, hc, r, hr, hB, hp⟩
    · exact ⟨c, hc, r, hr, hB, (lit hc hr hB).mp hp⟩
    · exact ⟨c, hc, r, hr, hB, (lit hc hr hB).mpr hp⟩

end Sys2Proof.Machine
end

section
/-! SUPPORT. What each instruction may change (10_state.md R28), instruction by instruction, and the statements over all
instructions that follow from it. -/

open Sys2Proof.Stmt

namespace Sys2Proof.Machine

/-- The frame of each instruction: what it may change in `s`, `pc` apart (R28). -/
def touched (s : State) : Instr → Touched
  | .op6XNN x _ | .op7XNN x _ | .op8XY0 x _ | .op8XY1 x _ | .op8XY2 x _ | .op8XY3 x _ | .opFX07 x | .opFX0A x =>
    { regs := [x] }
  | .opCXNN x _ => { regs := [x], rndIndex := true }
  | .op8XY4 x _ | .op8XY5 x _ | .op8XY6 x _ | .op8XY7 x _ | .op8XYE x _ => { regs := [x, vF] }
  | .opFX1E _ => { regs := [vF], index := true }
  | .opDXYN _ _ _ => { regs := [vF], screen := true }
  | .opFX65 x => { regs := (List.finRange 16).filter (fun k => decide (k ≤ x)), index := true }
  | .op00E0 => { screen := true }
  | .op00EE | .op2NNN _ => { stack := true, latches := true }
  | .op0NNN _ => { latches := true }
  | .opANNN _ | .opFX29 _ => { index := true }
  | .opFX15 _ => { delay := true }
  | .opFX18 _ => { sound := true }
  | .opFX33 _ => { bytes := [ea s.I 0, ea s.I 1, ea s.I 2] }
  | .opFX55 x => { index := true, bytes := (List.range (x.val + 1)).map (ea s.I) }
  | .op1NNN _ | .opBNNN _ | .op3XNN _ _ | .op4XNN _ _ | .op5XY0 _ _ _ | .op9XY0 _ _ _ | .opEX9E _ | .opEXA1 _ => {}

section exec
variable {i : Instr} {s t : State}

/-- No instruction changes anything outside its frame. -/
theorem exec_unchanged (h : exec i s = .next t) : Unchanged (touched s i) s t := by
  cases i
  case op00EE =>
    obtain ⟨_, rfl⟩ | ⟨_, rfl⟩ := exec_op00EE_cases h
    · exact ((Unchanged.refl _ s).setStack rfl _ _).setPc _
    · exact (Unchanged.refl _ s).setLatches rfl _ _ _ _
  case op2NNN nnn =>
    obtain ⟨_, rfl⟩ | ⟨_, rfl⟩ := exec_op2NNN_cases h
    · exact ((Unchanged.refl _ s).setStack rfl _ _).setPc _
    · exact (Unchanged.refl _ s).setLatches rfl _ _ _ _
  case opFX0A x =>
    obtain ⟨_, rfl⟩ | ⟨_, rfl⟩ := exec_opFX0A_cases h
    · exact (Unchanged.refl _ s).setPc _
    · exact unchanged_writeV s x _
  case opDXYN x y n => exact unchanged_of_exec_opDXYN h
  case op0NNN nnn => cases h; exact (Unchanged.refl _ s).setLatches rfl _ _ _ _
  case op6XNN | op7XNN | op8XY0 | op8XY1 | op8XY2 | op8XY3 | opFX07 => cases h; exact unchanged_writeV s _ _
  case op8XY4 | op8XY5 | op8XY6 | op8XY7 | op8XYE => cases h; exact unchanged_writeResultFlag s _ _ _
  case op1NNN | opBNNN => cases h; exact unchanged_setPc s _
  case op3XNN | op4XNN | op5XY0 | op9XY0 | opEX9E | opEXA1 => cases h; exact unchanged_skipIf s _
  case opANNN | opFX29 => cases h; exact unchanged_setI s _
  case opCXNN x nn => cases h; exact ((Unchanged.refl _ s).writeV (List.mem_singleton_self x) _).setRndIndex rfl _
  case op00E0 => cases h; exact (Unchanged.refl _ s).setScreen rfl _
  case opFX1E => cases h; exact ((Unchanged.refl _ s).setI rfl _).writeV (List.mem_singleton_self vF) _
  case opFX15 => cases h; exact (Unchanged.refl _ s).setDelay rfl _
  case opFX18 => cases h; exact (Unchanged.refl _ s).setSound rfl _
  case opFX33 =>
    cases h
    exact (((Unchanged.refl _ s).writeByte (by simp [touched]) _).writeByte (by simp [touched]) _).writeByte
      (by simp [touched]) _
  case opFX55 =>
    cases h
    exact ((Unchanged.refl _ s).setMemory fun _ ha => storeRegs_read_of_notMem s.V s.I s.memory ha).setI rfl _
  case opFX65 x => cases h; exact unchanged_loadRegs s x

/-- The instructions that write `pc` (R28): every other one leaves the advanced `pc` as it is. -/
theorem exec_pc_cases (h : exec i s = .next t) : t.pc = s.pc ∨
    i = .op00EE ∨ (∃ nnn, i = .op1NNN nnn ∨ i = .op2NNN nnn ∨ i = .opBNNN nnn) ∨
      (∃ x nn, i = .op3XNN x nn ∨ i = .op4XNN x nn) ∨ (∃ x y u, i = .op5XY0 x y u ∨ i = .op9XY0 x y u) ∨
      ∃ x, i = .opEX9E x ∨ i = .opEXA1 x ∨ i = .opFX0A x := by
  cases i
  case op00EE | op1NNN | op2NNN | opBNNN | op3XNN | op4XNN | op5XY0 | op9XY0 | opEX9E | opEXA1 | opFX0A =>
    right; simp
  all_goals cases h; exact .inl rfl

/-- The flag writers leave a flag in VF (R11, R84). -/
theorem exec_flag (hi : WritesFlag i) (h : exec i s = .next t) : ∃ c, t.V[vF] = flagByte c := by
  cases i
  case op8XY4 | op8XY5 | op8XY6 | op8XY7 | op8XYE => cases h; exact ⟨_, writeResultFlag_flag _ _ _ _⟩
  case opFX1E => cases h; exact ⟨_, getElem_writeV_self _ _ _⟩
  case opDXYN => obtain ⟨c, hc, _⟩ := draws_of_exec_opDXYN h; exact ⟨c, hc⟩
  all_goals cases hi

end exec

/-! ### The frames, read from the side of the element -/

section touched
variable {i : Instr} {s : State}

theorem mayWriteReg_of_mem_touched {r : RegIdx} (h : r ∈ (touched s i).regs) : MayWriteReg r i := by
  cases i
  case op6XNN | op7XNN | op8XY0 | op8XY1 | op8XY2 | op8XY3 | opCXNN | opFX07 | opFX0A | opFX1E | opDXYN =>
    exact List.mem_singleton.mp h
  case op8XY4 | op8XY5 | op8XY6 | op8XY7 | op8XYE => exact List.mem_pair.mp h
  case opFX65 x => exact (of_decide_eq_true (List.mem_filter.mp h).2 : r ≤ x)
  all_goals exact absurd h List.not_mem_nil

theorem touched_index (h : (touched s i).index ≠ false) :
    (∃ nnn, i = .opANNN nnn) ∨ ∃ x, i = .opFX1E x ∨ i = .opFX29 x ∨ i = .opFX55 x ∨ i = .opFX65 x := by
  cases i
  case opANNN | opFX1E | opFX29 | opFX55 | opFX65 => simp
  all_goals exact absurd rfl h

theorem touched_stack (h : (touched s i).stack ≠ false) : i = .op00EE ∨ ∃ nnn, i = .op2NNN nnn := by
  cases i
  case op00EE | op2NNN => simp
  all_goals exact absurd rfl h

theorem touched_delay (h : (touched s i).delay ≠ false) : ∃ x, i = .opFX15 x := by
  cases i
  case opFX15 x => exact ⟨x, rfl⟩
  all_goals exact absurd rfl h

theorem touched_sound (h : (touched s i).sound ≠ false) : ∃ x, i = .opFX18 x := by
  cases i
  case opFX18 x => exact ⟨x, rfl⟩
  all_goals exact absurd rfl h

theorem touched_bytes {a : Addr} (h : a ∈ (touched s i).bytes) : ∃ x, i = .opFX33 x ∨ i = .opFX55 x := by
  cases i
  case opFX33 x => exact ⟨x, .inl rfl⟩
  case opFX55 x => exact ⟨x, .inr rfl⟩
  all_goals exact absurd h List.not_mem_nil

theorem touched_screen (h : (touched s i).screen ≠ false) : i = .op00E0 ∨ ∃ x y n, i = .opDXYN x y n := by
  cases i
  case op00E0 | opDXYN => simp
  all_goals exact absurd rfl h

theorem touched_latches (h : (touched s i).latches ≠ false) :
    i = .op00EE ∨ ∃ nnn, i = .op0NNN nnn ∨ i = .op2NNN nnn := by
  cases i
  case op00EE | op0NNN | op2NNN => simp
  all_goals exact absurd rfl h

end touched

/-- Settles O57: what changes is in the instruction's frame, and the frames name each element only where R28 does. -/
theorem onlyTheListedInstructionsWriteEachElement : Obligations.OnlyTheListedInstructionsWriteEachElement := by
  intro i s t h
  have frame := exec_unchanged h
  have stack (e : (touched s i).stack = false) : ¬ (t.stack ≠ s.stack ∨ t.sp ≠ s.sp) := by
    obtain ⟨hstack, hsp⟩ := frame.stack e
    simp [hstack, hsp]
  have latches (e : (touched s i).latches = false) :
      ¬ (t.halted ≠ s.halted ∨ t.faultCode ≠ s.faultCode ∨ t.faultPc ≠ s.faultPc ∨ t.faultWord ≠ s.faultWord) := by
    obtain ⟨hhalted, hcode, hpc, hword⟩ := frame.latches e
    simp [hhalted, hcode, hpc, hword]
  exact ⟨fun r hr => mayWriteReg_of_mem_touched (by_contra fun hmem => hr (frame.regs r hmem)),
    fun hI => touched_index fun e => hI (frame.index e), (exec_pc_cases h).resolve_left,
    fun hst => touched_stack fun e => stack e hst, fun hd => touched_delay fun e => hd (frame.delay e),
    fun hs => touched_sound fun e => hs (frame.sound e),
    fun ⟨a, ha⟩ => touched_bytes (by_contra fun hmem => ha (frame.bytes a hmem)),
    fun hs => touched_screen fun e => hs (frame.screen e), fun hl => touched_latches fun e => latches e hl,
    frame.keypad, frame.beepReq, frame.dtFresh, frame.schedule⟩

/-- Settles O58. -/
theorem flagWritersLeaveZeroOrOne : Obligations.FlagWritersLeaveZeroOrOne := by
  intro i s t hi h
  obtain ⟨c, hc⟩ := exec_flag hi h
  rw [hc]
  cases c
  · exact .inl rfl
  · exact .inr rfl

/-! ### What no instruction reads -/

/-- `s` with the outputs of `o`: with everything that no instruction reads. -/
def State.withOutputs (s o : State) : State :=
  { s with
    sound := o.sound, dtFresh := o.dtFresh, beepReq := o.beepReq, halted := o.halted, faultCode := o.faultCode
    faultPc := o.faultPc, faultWord := o.faultWord, schedule := o.schedule }

section sameView
variable {s t : State}

theorem sameView_withOutputs (s o : State) : SameView s (s.withOutputs o) :=
  ⟨rfl, rfl, rfl, rfl, rfl, rfl, rfl, rfl, rfl, rfl⟩

theorem eq_withOutputs_of_sameView {s' : State} (h : SameView s s') : s' = s.withOutputs s' := by
  obtain ⟨hV, hI, hpc, hstack, hsp, hdelay, hkeypad, hscreen, hmemory, hrnd⟩ := h
  rw [State.withOutputs, ← hV, ← hI, ← hpc, ← hstack, ← hsp, ← hdelay, ← hkeypad, ← hscreen, ← hmemory, ← hrnd]

/-- The latches that a fault writes are not in view. -/
theorem sameView_raise (f : Fault) (w : Word) (o : State) : SameView (raise f w s) (raise f w (s.withOutputs o)) :=
  ⟨rfl, rfl, rfl, rfl, rfl, rfl, rfl, rfl, rfl, rfl⟩

theorem sameView_skipIf (c : Bool) (o : State) : SameView (s.skipIf c) ((s.withOutputs o).skipIf c) := by
  rw [skipIf_eq, skipIf_eq]; exact sameView_withOutputs _ o

/-- With other outputs an instruction does the same to all that is in view. -/
theorem exec_withOutputs {i : Instr} (h : exec i s = .next t) (o : State) :
    ∃ t', exec i (s.withOutputs o) = .next t' ∧ SameView t t' := by
  cases i
  case op00EE =>
    obtain ⟨hsp, rfl⟩ | ⟨hsp, rfl⟩ := exec_op00EE_cases h
    · exact ⟨_, exec_op00EE_of_entry (s.withOutputs o) hsp, sameView_withOutputs _ o⟩
    · exact ⟨_, exec_op00EE_of_empty (s.withOutputs o) hsp, sameView_raise _ _ o⟩
  case op2NNN nnn =>
    obtain ⟨hsp, rfl⟩ | ⟨hsp, rfl⟩ := exec_op2NNN_cases h
    · exact ⟨_, exec_op2NNN_of_room (s.withOutputs o) nnn hsp, sameView_withOutputs _ o⟩
    · exact ⟨_, exec_op2NNN_of_full (s.withOutputs o) nnn hsp, sameView_raise _ _ o⟩
  case opFX0A x =>
    obtain ⟨hk, rfl⟩ | ⟨hk, rfl⟩ := exec_opFX0A_cases h
    · exact ⟨_, exec_opFX0A_of_none (s.withOutputs o) x hk, sameView_withOutputs _ o⟩
    · exact ⟨_, exec_opFX0A_of_key (s.withOutputs o) x hk, sameView_withOutputs _ o⟩
  case op0NNN => cases h; exact ⟨_, rfl, sameView_raise _ _ o⟩
  case opFX18 x => cases h; exact ⟨_, rfl, sameView_withOutputs _ (o.setSound s.V[x])⟩
  case op3XNN | op4XNN | op5XY0 | op9XY0 | opEX9E | opEXA1 =>
    cases h; exact ⟨_, rfl, sameView_skipIf _ o⟩
  all_goals cases h; exact ⟨_, rfl, sameView_withOutputs _ o⟩

end sameView

/-- Settles O59. -/
theorem programsCannotReadTheOutputs : Obligations.ProgramsCannotReadTheOutputs := by
  intro i s s' t hview h
  rw [eq_withOutputs_of_sameView hview]
  exact exec_withOutputs h s'

end Sys2Proof.Machine
end

section
/-! SUPPORT. The invariants of the machine (10_state.md R29; 60_exceptions.md R160 to R166): what each update keeps of them,
and that every event keeps them. -/

open Sys2Proof.Stmt

namespace Sys2Proof.Machine

/-! ### The invariant of R29, one update at a time -/

section inv
variable {s : State}

/-! The updates of what the invariant does not speak of. -/

theorem State.Inv.writeV (h : s.Inv) (x : RegIdx) (b : Byte) : (s.writeV x b).Inv := { h with }
theorem State.Inv.setRegs (h : s.Inv) (V : Vector Byte 16) : (s.setRegs V).Inv := { h with }
theorem State.Inv.setDelay (h : s.Inv) (b : Byte) : (s.setDelay b).Inv := { h with }
theorem State.Inv.setSound (h : s.Inv) (b : Byte) : (s.setSound b).Inv := { h with }
theorem State.Inv.setKeypad (h : s.Inv) (k : BitVec 16) : (s.setKeypad k).Inv := { h with }
theorem State.Inv.setScreen (h : s.Inv) (scr : Screen) : (s.setScreen scr).Inv := { h with }
theorem State.Inv.setDtFresh (h : s.Inv) (b : Bool) : (s.setDtFresh b).Inv := { h with }
theorem State.Inv.setBeepReq (h : s.Inv) (b : Bool) : (s.setBeepReq b).Inv := { h with }
theorem State.Inv.setRndIndex (h : s.Inv) (n : Nat) : (s.setRndIndex n).Inv := { h with }
theorem State.Inv.setSchedule (h : s.Inv) (es : List Event) : (s.setSchedule es).Inv := { h with }

/-! The updates of what it does speak of. -/

theorem State.Inv.setPc (h : s.Inv) {a : Word} (ha : a.toNat ≤ 0xFFF) : (s.setPc a).Inv := { h with pc_range := ha }

theorem State.Inv.setI (h : s.Inv) {a : Word} (ha : a.toNat ≤ 0xFFF) : (s.setI a).Inv := { h with index_range := ha }

theorem State.Inv.setMemory (h : s.Inv) {m : Memory} (hm : m.wf) : (s.setMemory m).Inv := { h with memory_wf := hm }

theorem State.Inv.writeByte (h : s.Inv) (a : Addr) (v : Byte) : (s.writeByte a v).Inv :=
  h.setMemory (Memory.write_wf h.memory_wf a v)

theorem State.Inv.setStack (h : s.Inv) {entries : Vector Word 16} {depth : Fin 17}
    (he : ∀ k : Fin 16, k.val < depth.val → (entries[k]).toNat ≤ 0xFFF) : (s.setStack entries depth).Inv :=
  { h with stack_range := he }

theorem Fault.code_toNat_le (f : Fault) : f.code.toNat ≤ 4 := by cases f <;> decide

theorem State.Inv.raiseAt (h : s.Inv) (f : Fault) (a : Addr) (w : Word) : (raiseAt f a w s).Inv :=
  { h with
    code_iff_halted := ⟨fun _ => rfl, fun _ => f.code_ne_zero⟩
    code_range := f.code_toNat_le }

theorem nextPc_le (pc : Word) : (nextPc pc).toNat ≤ 0xFFF := by rw [nextPc_toNat]; omega
theorem prevPc_le (pc : Word) : (prevPc pc).toNat ≤ 0xFFF := by rw [prevPc_toNat]; omega
theorem zext16_le (nnn : Addr) : (zext16 nnn).toNat ≤ 0xFFF := by have := nnn.isLt; rw [zext16_toNat]; omega
theorem indexPlus_le (i : Word) (n : Nat) : (indexPlus i n).toNat ≤ 0xFFF := by rw [indexPlus_toNat]; omega
theorem indexedTarget_le (nnn : Addr) (b : Byte) : (indexedTarget nnn b).toNat ≤ 0xFFF := by
  rw [indexedTarget_toNat]; omega
theorem glyphAddress_le (b : Byte) : (glyphAddress b).toNat ≤ 0xFFF := by
  have := b.isLt
  rw [glyphAddress_toNat]; omega

theorem State.Inv.skipIf (h : s.Inv) (c : Bool) : (s.skipIf c).Inv := by
  cases c
  · exact h
  · exact h.setPc (nextPc_le s.pc)

/-- A push of an address keeps the live entries addresses (R17). -/
theorem State.Inv.push (h : s.Inv) {v : Word} (hv : v.toNat ≤ 0xFFF) (hroom : s.sp.val < 16) :
    (s.setStack (s.stack.set s.sp.val v hroom) ⟨s.sp.val + 1, by omega⟩).Inv := by
  refine h.setStack fun k hk => ?_
  rw [getElem_push hroom v k]
  split
  case isTrue => exact hv
  case isFalse hne => exact h.stack_range k (by simp only at hk; omega)

/-- Every instruction keeps the invariant. -/
theorem exec_inv {i : Instr} {t : State} (hs : s.Inv) (h : exec i s = .next t) : t.Inv := by
  cases i
  case op00EE =>
    obtain ⟨hsp, rfl⟩ | ⟨_, rfl⟩ := exec_op00EE_cases h
    · have hlt := s.sp.isLt
      exact (hs.setStack fun k hk => hs.stack_range k (Nat.lt_of_lt_of_le hk (Nat.sub_le _ 1))).setPc
        (hs.stack_range ⟨s.sp.val - 1, by omega⟩ (Nat.sub_lt hsp one_pos))
    · exact hs.raiseAt _ _ _
  case op2NNN nnn =>
    obtain ⟨hsp, rfl⟩ | ⟨_, rfl⟩ := exec_op2NNN_cases h
    · exact (hs.push hs.pc_range hsp).setPc (zext16_le nnn)
    · exact hs.raiseAt _ _ _
  case opFX0A x =>
    obtain ⟨_, rfl⟩ | ⟨_, rfl⟩ := exec_opFX0A_cases h
    · exact hs.setPc (prevPc_le s.pc)
    · exact hs.writeV x _
  case op0NNN => cases h; exact hs.raiseAt _ _ _
  case op6XNN | op7XNN | op8XY0 | op8XY1 | op8XY2 | op8XY3 | opFX07 => cases h; exact hs.writeV _ _
  case op8XY4 | op8XY5 | op8XY6 | op8XY7 | op8XYE => cases h; exact (hs.writeV _ _).writeV vF _
  case op1NNN nnn => cases h; exact hs.setPc (zext16_le nnn)
  case opBNNN nnn => cases h; exact hs.setPc (indexedTarget_le nnn _)
  case op3XNN | op4XNN | op5XY0 | op9XY0 | opEX9E | opEXA1 => cases h; exact hs.skipIf _
  case opANNN nnn => cases h; exact hs.setI (zext16_le nnn)
  case opFX29 => cases h; exact hs.setI (glyphAddress_le _)
  case opCXNN => cases h; exact (hs.writeV _ _).setRndIndex _
  case op00E0 => cases h; exact hs.setScreen _
  case opDXYN x y n => rw [exec_opDXYN] at h; cases h; exact (hs.setScreen _).writeV vF _
  case opFX1E => cases h; exact (hs.setI (indexPlus_le _ _)).writeV vF _
  case opFX15 => cases h; exact hs.setDelay _
  case opFX18 => cases h; exact hs.setSound _
  case opFX33 => cases h; exact ((hs.writeByte _ _).writeByte _ _).writeByte _ _
  case opFX55 => cases h; exact (hs.setMemory (storeRegs_wf hs.memory_wf)).setI (indexPlus_le _ _)
  case opFX65 => cases h; exact (hs.setRegs _).setI (indexPlus_le _ _)

theorem State.Inv.advance (h : s.Inv) : s.advance.Inv := h.setPc (nextPc_le s.pc)

theorem stepEvent_inv {t : State} (hs : s.Inv) (h : stepEvent s = .next t) : t.Inv := by
  cases hh : s.halted with
  | true => rw [stepEvent_of_halted hh] at h; cases h; exact hs
  | false =>
    rcases stepEvent_running_cases hh h with ⟨i, u, _, hu, _, rfl⟩ | ⟨f, _, rfl⟩
    · exact (exec_inv hs.advance hu).setDtFresh _
    · exact hs.advance.raiseAt f _ _

theorem tickEvent_inv (hs : s.Inv) : (tickEvent s).Inv := by
  unfold tickEvent
  split
  · exact hs
  · exact (((hs.setBeepReq _).setDelay _).setSound _).setDtFresh _

end inv

theorem reset_inv : State.reset.Inv where
  pc_range := by decide
  index_range := by decide
  stack_range k hk := absurd hk (Nat.not_lt_zero _)
  code_iff_halted := by decide
  code_range := by decide
  memory_wf := Memory.reset_wf

theorem afterReset_inv (s : State) (image : List Byte) : (s.afterReset image).Inv :=
  (((reset_inv.setMemory (Memory.withImage_wf image)).setKeypad _).setRndIndex _).setSchedule _

/-- Settles O53. -/
theorem resetMeetsTheInvariant : Obligations.ResetMeetsTheInvariant := reset_inv

/-- Settles O54. -/
theorem everyEventKeepsTheInvariant : Obligations.EveryEventKeepsTheInvariant := fun _ _ hs h =>
  step_preserves (P := State.Inv) hs h (fun _ es hs => hs.setSchedule es) (fun _ _ => stepEvent_inv)
    (fun _ => tickEvent_inv) (fun _ k hs => hs.setKeypad k) afterReset_inv

/-- A tick of a running core (R175). -/
theorem tickEvent_of_running {s : State} (h : s.halted = false) : tickEvent s = { s with
    beepReq := s.soundActive
    delay := if s.dtFresh then s.delay else countDown s.delay
    sound := countDown s.sound
    dtFresh := false } := by
  rw [tickEvent, if_neg (Bool.eq_false_iff.mp h)]; rfl

/-! ### Latches that explain the fault (R160 to R165) -/

theorem latchesExplain_of_running {t : State} (h : t.halted = false) : t.LatchesExplain := fun ht => by
  rw [h] at ht; cases ht

/-- The fault entry of a condition that holds: the latches hold the word that raised it. -/
theorem latchesExplain_raiseAt {s : State} {f : Fault} (hf : Fatal s f) :
    (raiseAt f s.fetchAddr s.fetchWord s.advance).LatchesExplain := by
  intro _
  have hpc : (nextPc s.pc).toNat = (s.fetchAddr.toNat + 2) % 0x1000 := by
    rw [nextPc_toNat, fetchAddr_toNat]; omega
  refine ⟨hpc, ?_⟩
  cases f with
  | unsupportedMachineCall => exact .inl ⟨rfl, hf⟩
  | stackUnderflow => exact .inr (.inl ⟨rfl, hf⟩)
  | illegalOpcode => exact .inr (.inr (.inl ⟨rfl, hf⟩))
  | stackOverflow => exact .inr (.inr (.inr ⟨rfl, hf⟩))

theorem stepEvent_latchesExplain {s t : State} (hs : s.LatchesExplain) (h : stepEvent s = .next t) :
    t.LatchesExplain := by
  cases hh : s.halted with
  | true => rw [stepEvent_of_halted hh] at h; cases h; exact hs
  | false =>
    rcases stepEvent_running_cases hh h with ⟨i, u, _, _, hu, rfl⟩ | ⟨f, hf, rfl⟩
    · exact latchesExplain_of_running hu
    · exact latchesExplain_raiseAt hf

theorem tickEvent_latchesExplain {s : State} (hs : s.LatchesExplain) : (tickEvent s).LatchesExplain := by
  cases hh : s.halted with
  | true => rw [tickEvent_of_halted hh]; exact hs
  | false => rw [tickEvent_of_running hh]; exact latchesExplain_of_running hh

/-- Settles O55. -/
theorem everyEventKeepsLatchesThatExplain : Obligations.EveryEventKeepsLatchesThatExplain := fun _ _ hs h =>
  step_preserves (P := State.LatchesExplain) hs h (fun _ _ hs => hs) (fun _ _ => stepEvent_latchesExplain)
    (fun _ => tickEvent_latchesExplain) (fun _ _ hs => hs) (fun _ _ => latchesExplain_of_running rfl)

/-! ### `dt_fresh` only while `delay` is above 0 (R24) -/

/-- Settles O56: a step that completes sets `dt_fresh` only where `delay` has grown, a fault entry writes neither, a tick and
a reset clear `dt_fresh`. -/
theorem everyEventKeepsFreshDelayPositive : Obligations.EveryEventKeepsFreshDelayPositive := fun s t hs h => by
  refine step_preserves (P := fun s => s.dtFresh = true → 0 < s.delay.toNat) hs h (fun _ _ hs => hs) ?_ ?_
    (fun _ _ hs => hs) (fun _ _ hf => by cases hf)
  · intro s t hs h
    cases hh : s.halted with
    | true => rw [stepEvent_of_halted hh] at h; cases h; exact hs
    | false =>
      rcases stepEvent_running_cases hh h with ⟨i, u, _, _, _, rfl⟩ | ⟨f, _, rfl⟩
      · exact fun hfresh => Nat.zero_lt_of_lt (of_decide_eq_true hfresh)
      · exact hs
  · intro s hs
    unfold tickEvent
    split
    · exact hs
    · exact fun hf => by cases hf

end Sys2Proof.Machine
end

section
/-! SUPPORT. The timers over steps and ticks (10_state.md R19, R20, R24; 60_exceptions.md R175), a step that waits for a key
(45_keypad_timers.md R153), and a finished program (60_exceptions.md R183). -/

open Sys2Proof.Stmt

namespace Sys2Proof.Machine

/-! ### Ticks -/

theorem countDown_toNat (b : Byte) : (countDown b).toNat = b.toNat - 1 := by
  have := b.isLt
  rw [countDown, BitVec.toNat_ofNat]; omega

theorem countDown_eq (b : Byte) : countDown b = if 0 < b.toNat then b - 1 else b := by
  apply BitVec.eq_of_toNat_eq
  rw [countDown_toNat]
  split
  case isTrue h => rw [BitVec.toNat_sub, show (1 : Byte).toNat = 1 from rfl]; omega
  case isFalse h => omega

/-- Settles O37. -/
theorem tickCountsTheTimersDown : Obligations.TickCountsTheTimersDown := by
  intro s es h
  refine ⟨fun hh => (step_of_tick h).trans (congrArg _ (tickEvent_of_halted hh)), fun hh => ?_⟩
  have hdelay : (if s.dtFresh = true then s.delay else countDown s.delay) =
      if s.dtFresh = false ∧ 0 < s.delay.toNat then s.delay - 1 else s.delay := by
    rw [countDown_eq]; cases s.dtFresh <;> simp
  rw [step_of_tick h, tickEvent_of_running (s := s.setSchedule es) hh, ← hdelay, ← countDown_eq]
  rfl

/-- One tick of a core that is neither halted nor fresh (R175, R19, R20). -/
theorem step_tick {s : State} {es : List Event} (h : s.schedule = .tick :: es) (hh : s.halted = false)
    (hf : s.dtFresh = false) : ∃ t, step s = .next t ∧ t.halted = false ∧ t.dtFresh = false ∧ t.schedule = es ∧
      t.pc = s.pc ∧ t.delay.toNat = s.delay.toNat - 1 ∧ t.sound.toNat = s.sound.toNat - 1 ∧
      t.beepReq = decide (0 < s.sound.toNat) := by
  rw [step_of_tick h, tickEvent_of_running (s := s.setSchedule es) hh]
  refine ⟨_, rfl, hh, rfl, rfl, rfl, ?_, countDown_toNat s.sound, rfl⟩
  show (if s.dtFresh = true then s.delay else countDown s.delay).toNat = _
  rw [hf, if_neg Bool.false_ne_true, countDown_toNat]

/-- A tick of a core that is not halted but fresh: `delay` is spared once (R24, R175). -/
theorem step_tick_of_fresh {s : State} {es : List Event} (h : s.schedule = .tick :: es) (hh : s.halted = false)
    (hf : s.dtFresh = true) : ∃ t, step s = .next t ∧ t.halted = false ∧ t.dtFresh = false ∧ t.schedule = es ∧
      t.delay = s.delay := by
  rw [step_of_tick h, tickEvent_of_running (s := s.setSchedule es) hh]
  exact ⟨_, rfl, hh, rfl, rfl, if_pos hf⟩

/-- A run is one step and the run from there. -/
theorem run_succ_of_step {M : Host.Core} {s t : M.State} (h : M.step s = .next t) (n : Nat) :
    M.run (n + 1) s = M.run n t := by
  simp only [Host.Core.run, h]

/-- Settles O38, by induction on the number of ticks after the first, for every state. -/
theorem ticksCountDownToTheFloor : Obligations.TicksCountDownToTheFloor := by
  intro n
  induction n with
  | zero =>
    intro s es hh hf hsched
    obtain ⟨t, ht, _, _, hes, hpc, hdelay, hsound, hbeep⟩ := step_tick hsched hh hf
    exact ⟨t, run_succ_of_step (M := core) ht 0, hdelay, hsound, hbeep, hes, hpc⟩
  | succ n ih =>
    intro s es hh hf hsched
    obtain ⟨s', hs', hh', hf', hsched', hpc, hdelay, hsound, _⟩ := step_tick hsched hh hf
    obtain ⟨t, ht, hdelay', hsound', hbeep', hes, hpc'⟩ := ih s' es hh' hf' hsched'
    refine ⟨t, (run_succ_of_step (M := core) hs' (n + 1)).trans ht, ?_, ?_, ?_, hes, hpc'.trans hpc⟩
    · rw [hdelay', hdelay]; omega
    · rw [hsound', hsound]; omega
    · rw [hbeep', hsound, decide_eq_decide]; omega

/-! ### `dt_fresh` -/

/-- Settles O35: `dt_fresh` is the comparison that ends the step, and only the frame of `FX15` lets `delay` change. -/
theorem dtFreshMarksAStepThatRaisedDelay : Obligations.DtFreshMarksAStepThatRaisedDelay := by
  intro s t es hs hnext h ht
  rw [step_of_stepIsNext hnext] at h
  rcases stepEvent_running_cases (s := s.setSchedule es) hs h with ⟨i, u, hd, hu, _, rfl⟩ | ⟨f, _, rfl⟩
  · have grew : (u.setDtFresh (decide (s.delay.toNat < u.delay.toNat))).dtFresh = true ↔ s.delay.toNat < u.delay.toNat :=
      decide_eq_true_iff
    refine ⟨grew, fun hfresh => ?_⟩
    have hne : u.delay ≠ s.delay := fun e => absurd (grew.mp hfresh) (by rw [e]; exact Nat.lt_irrefl _)
    obtain ⟨x, rfl⟩ := touched_delay fun e => hne ((exec_unchanged hu).delay e)
    exact ⟨x, hd⟩
  · cases ht

/-- A step that raises `delay` (R155, R80). -/
theorem step_opFX15 {s : State} {es : List Event} {x : RegIdx} (hh : s.halted = false) (hnext : StepIsNext s es)
    (hd : decodeWord s.fetchWord = .ok (.opFX15 x)) (hlt : s.delay.toNat < (s.V[x]).toNat) :
    step s = .next (((s.setSchedule es).advance.setDelay s.V[x]).setDtFresh true) := by
  have hexec : exec (.opFX15 x) (s.setSchedule es).advance = .next ((s.setSchedule es).advance.setDelay s.V[x]) :=
    exec_opFX15 _ x
  have hend := endStep_of_running (t := (s.setSchedule es).advance.setDelay s.V[x]) hh s.delay
  have hraised : decide (s.delay.toNat < (s.V[x]).toNat) = true := decide_eq_true hlt
  rw [step_of_stepIsNext hnext, stepEvent_of_ok (s := s.setSchedule es) hh hd hexec, State.setSchedule_delay, hend,
    State.setDelay_delay, hraised]

/-- Settles O36: the first tick finds `dt_fresh` set and spares `delay`, the second finds it clear. -/
theorem raisedDelaySurvivesTheNextTick : Obligations.RaisedDelaySurvivesTheNextTick := by
  intro s x es hh hsched hd hlt
  have hstep := step_opFX15 hh (.inl hsched) hd hlt
  obtain ⟨u, hu, huh, huf, hues, hudelay⟩ := step_tick_of_fresh
    (s := ((s.setSchedule (.tick :: .tick :: es)).advance.setDelay s.V[x]).setDtFresh true) rfl hh rfl
  obtain ⟨v, hv, _, _, _, _, hvdelay, _⟩ := step_tick hues huh huf
  have hudelay : u.delay = s.V[x] := hudelay
  refine ⟨_, u, v, hstep, hu, hv, rfl, hudelay, huf, ?_⟩
  rw [hvdelay, hudelay]; omega

/-! ### Waiting for a key (R153) -/

theorem prevPc_nextPc_of_le {pc : Word} (h : pc.toNat ≤ 0xFFF) : prevPc (nextPc pc) = pc :=
  BitVec.eq_of_toNat_eq ((prevPc_nextPc_toNat pc).trans (Nat.mod_eq_of_lt (Nat.lt_succ_of_le h)))

/-- Settles O33: `FX0A` undoes the fetch advance, and `delay` has not grown. -/
theorem waitingStepChangesOnlyDtFresh : Obligations.WaitingStepChangesOnlyDtFresh := by
  intro s x hh hsched hpc hk hd
  have hs : s.setSchedule [] = s := hsched ▸ rfl
  have hexec : exec (.opFX0A x) s.advance = .next s := by
    rw [exec_opFX0A_of_none s.advance x hk]
    show Host.Outcome.next (s.setPc (prevPc (nextPc s.pc))) = .next s
    rw [prevPc_nextPc_of_le hpc]; rfl
  rw [step_of_stepIsNext (.inr ⟨hsched, rfl⟩), hs, stepEvent_of_ok hh hd hexec, endStep_of_running hh,
    decide_eq_false (Nat.lt_irrefl _)]
  rfl

/-! ### A finished program (R183) -/

theorem finished_iff (s : State) :
    s.finished = true ↔ s.halted = false ∧ decodeWord s.fetchWord = .ok (.op1NNN s.fetchAddr) := by
  rw [State.finished, Bool.and_eq_true, Bool.not_eq_true', decide_eq_true_iff]

/-- Whether a program has finished depends on `pc`, memory and the halt latch alone. -/
theorem finished_congr {s t : State} (hpc : t.pc = s.pc) (hmemory : t.memory = s.memory) (hhalted : t.halted = s.halted) :
    t.finished = s.finished := by
  have haddr : t.fetchAddr = s.fetchAddr := congrArg (BitVec.setWidth 12) hpc
  have hword : t.fetchWord = s.fetchWord := congrArg₂ Memory.fetchWord hmemory haddr
  rw [Bool.eq_iff_iff, finished_iff, finished_iff, hhalted, hword, haddr]

theorem zext16_fetchAddr_of_le {s : State} (h : s.pc.toNat ≤ 0xFFF) : zext16 s.fetchAddr = s.pc :=
  BitVec.eq_of_toNat_eq
    ((zext16_toNat _).trans ((fetchAddr_toNat s).trans (Nat.mod_eq_of_lt (Nat.lt_succ_of_le h))))

/-- Settles O60: the jump goes back to its own address, and a tick and the keypad change nothing that counts. -/
theorem finishedProgramStaysFinished : Obligations.FinishedProgramStaysFinished := by
  intro s t hfin hpc hnoreset h
  obtain ⟨hh, hd⟩ := (finished_iff s).mp hfin
  have stays {t : State} (hV : t.V = s.V) (hI : t.I = s.I) (hpc : t.pc = s.pc) (hstack : t.stack = s.stack)
      (hsp : t.sp = s.sp) (hscreen : t.screen = s.screen) (hmemory : t.memory = s.memory) (hhalted : t.halted = s.halted) :
      t.finished = true ∧ t.V = s.V ∧ t.I = s.I ∧ t.pc = s.pc ∧ t.stack = s.stack ∧ t.sp = s.sp ∧
        t.screen = s.screen ∧ t.memory = s.memory ∧ t.halted = false :=
    ⟨(finished_congr hpc hmemory hhalted).trans hfin, hV, hI, hpc, hstack, hsp, hscreen, hmemory, hhalted.trans hh⟩
  rcases event_cases s with ⟨es, he⟩ | ⟨es, he⟩ | ⟨k, es, he⟩ | ⟨image, es, he⟩
  · rw [step_of_stepIsNext he, stepEvent_of_ok (s := s.setSchedule es) hh hd (exec_op1NNN _ _),
      endStep_of_running (t := (s.setSchedule es).advance.setPc _) hh] at h
    cases h
    exact stays rfl rfl (zext16_fetchAddr_of_le hpc) rfl rfl rfl rfl rfl
  · rw [step_of_tick he, tickEvent_of_running (s := s.setSchedule es) hh] at h
    cases h
    exact stays rfl rfl rfl rfl rfl rfl rfl rfl
  · rw [step_of_setKeys he] at h
    cases h
    exact stays rfl rfl rfl rfl rfl rfl rfl rfl
  · exact absurd he (hnoreset image es)

end Sys2Proof.Machine
end

section
/-! SUPPORT. Memory with an image, and the state that a reset leaves (10_state.md R27; 20_memory.md R46 to R48;
70_reset_and_hazards.md R190). -/

namespace Sys2Proof.Machine

/-! ### Bytes stored in a row -/

/-- A read after a run of stores that does not come round to its own start: the byte of the run at the distance from its
start, or what was there (R42, R45). -/
theorem read_writeBytes (bs : List Byte) (m : Memory) (a b : Addr) (h : bs.length ≤ 0x1000) :
    (m.writeBytes a bs).read b = bs.getD (b - a).toNat (m.read b) := by
  induction bs generalizing m a with
  | nil => rfl
  | cons v bs ih =>
    have hlen : bs.length + 1 ≤ 0x1000 := h
    rw [Memory.writeBytes, ih (m.write a v) (a + 1) (by omega)]
    by_cases hb : b = a
    · subst hb
      have hpast : bs.length ≤ (b - (b + 1)).toNat := by
        have : (b - (b + 1)).toNat = 0xFFF := by bv_omega
        omega
      rw [List.getD_eq_default _ _ hpast, Memory.read_write_self, BitVec.sub_self]; rfl
    · have hnext : (b - a).toNat = (b - (a + 1)).toNat + 1 := by bv_omega
      rw [Memory.read_write_other m v hb, hnext, List.getD_cons_succ]

/-- Beyond the font's 80 bytes an unlisted address reads as 0 (R27, R46). -/
theorem unlisted_eq (a : Nat) : Memory.unlisted a = if a < 80 then fontTable.getD a 0 else 0 := by
  split
  case isTrue => rfl
  case isFalse h => exact List.getD_eq_default _ _ (Nat.le_of_not_lt h)

/-- Memory after a reset with an image: the font, the image, and zeros (R48, R190). -/
theorem read_withImage {image : List Byte} (h : image.length ≤ 3584) (a : Addr) : (Memory.withImage image).read a =
    if a.toNat < 80 then fontTable.getD a.toNat 0
    else if 0x200 ≤ a.toNat ∧ a.toNat < 0x200 + image.length then image.getD (a.toNat - 0x200) 0
    else 0 := by
  have hlt := a.isLt
  have hoff : (a - BitVec.ofNat 12 Config.programBase).toNat = (a.toNat + 0xE00) % 0x1000 := by
    rw [BitVec.toNat_sub, show (BitVec.ofNat 12 Config.programBase).toNat = 0x200 from rfl]; omega
  have hempty : Memory.read [] a = Memory.unlisted a.toNat := rfl
  rw [Memory.withImage, read_writeBytes image [] _ a (by omega), hoff, hempty, unlisted_eq]
  by_cases hin : 0x200 ≤ a.toNat ∧ a.toNat < 0x200 + image.length
  · have hpos : (a.toNat + 0xE00) % 0x1000 = a.toNat - 0x200 := by omega
    have hindex : a.toNat - 0x200 < image.length := by omega
    rw [hpos, if_neg (show ¬ a.toNat < 80 by omega), if_neg (show ¬ a.toNat < 80 by omega), if_pos hin]
  · rw [if_neg hin]
    exact List.getD_eq_default _ _ (by omega)

/-! ### The reset state -/

theorem reset_V (r : RegIdx) : State.reset.V[r] = 0 := Vector.getElem_replicate r.isLt

theorem reset_pixel (x y : Nat) : State.reset.screen.pixel x y = false := Screen.pixel_clear x y

/-- Settles O2. -/
theorem resetStateHasTheSpecsValues : Obligations.ResetStateHasTheSpecsValues :=
  ⟨rfl, reset_V, rfl, rfl, rfl, rfl, reset_pixel, fun a => unlisted_eq a.toNat, rfl, rfl, rfl, rfl⟩

/-- Settles O1. -/
theorem resetEventLeavesTheSpecsValues : Obligations.ResetEventLeavesTheSpecsValues := by
  intro s image es h
  refine ⟨fun hlong => (step_of_reset h).trans (resetEvent_of_gt hlong _), fun hlen => ?_⟩
  exact ⟨_, (step_of_reset h).trans (resetEvent_of_le hlen _), read_withImage hlen, rfl, reset_V, rfl, rfl, rfl, rfl,
    fun x _ y _ => reset_pixel x y, rfl, rfl, rfl, rfl, rfl⟩

end Sys2Proof.Machine
end
